-- ==== Sys2Proof/Word.lean ====
section
/-! DEFINITION. The word types of the blue-avocado cipher core: 32-bit words and 8-bit bytes (R8, R10). -/

namespace Sys2Proof

/-- A 32-bit word, the width of every register and datapath (R8, R21). Bit 0 is the least significant bit (R10);
`+`, `-` and `*` wrap modulo 2^32 (R11). -/
abbrev Word := BitVec 32

/-- A byte of an operand that the spec treats as a byte string (R59). -/
abbrev Byte := BitVec 8

end Sys2Proof
end

