-- ==== Sys2Proof/Syntax.lean ====
section
/-! DEFINITION. The commands of the core, one constructor for each row of the opcode map (R85). -/

namespace Sys2Proof

/-- A command: what one word written to CMD asks for (R80, R85). Only MARS_KEY has an operand in the command word; every
other operand stands in a staging register (R82). -/
inductive Instr where
  | nop                    -- 0x00, R100
  | srst                   -- 0x01, R101
  | marsKey (len : Nat)    -- 0x10, R135: LEN, the number of key words
  | marsEnc                -- 0x11, R136
  | marsDec                -- 0x12, R137
  | marsS                  -- 0x13, R138
  | marsS0                 -- 0x14, R139
  | marsS1                 -- 0x15, R140
  | marsMask               -- 0x16, R141
  | salsaKey               -- 0x20, R175
  | salsaQr                -- 0x21, R176
  | salsaHash              -- 0x22, R177
  | salsaBlock             -- 0x23, R178
  | salsaStart             -- 0x24, R179
  | salsaXor               -- 0x25, R180
  | trivInit               -- 0x30, R220
  | trivClk                -- 0x31, R221
  | trivByte               -- 0x32, R222
  | trivXor                -- 0x33, R223
deriving DecidableEq, Repr

end Sys2Proof
end

