-- ==== Sys2Proof/WellFormed.lean ====
section
/-! DEFINITION. Which commands have an encoding: LEN is an unsigned 4-bit number (R82). -/

namespace Sys2Proof

/-- A command is well formed when its fields fit the command word. The only field is LEN, 0 to 15 (R82); the values that
MARS_KEY rejects when it executes (0 to 3 and 15) are well formed. -/
def Instr.wf : Instr → Bool
  | .nop => true
  | .srst => true
  | .marsKey len => len ≤ 15
  | .marsEnc => true
  | .marsDec => true
  | .marsS => true
  | .marsS0 => true
  | .marsS1 => true
  | .marsMask => true
  | .salsaKey => true
  | .salsaQr => true
  | .salsaHash => true
  | .salsaBlock => true
  | .salsaStart => true
  | .salsaXor => true
  | .trivInit => true
  | .trivClk => true
  | .trivByte => true
  | .trivXor => true

end Sys2Proof
end

