-- ==== Sys2Proof/Decode.lean ====
section
/-! DEFINITION. Decoding a command word, total on every word and rejecting by name (R80 to R86), and the encoder. -/

namespace Sys2Proof

/-- Why a command word is illegal (R83, R86). The core reports every one of them as ERR = ILLEGAL. -/
inductive Illegal where
  | reservedBits   -- bits 31:12 are not 0
  | lenNotZero     -- LEN is not 0 and OP is not MARS_KEY
  | unassignedOp   -- OP is in no row of the opcode map
deriving DecidableEq, Repr

/-- `OP = v[7:0]` (R80, R81). -/
def opField (v : Word) : BitVec 8 := v.extractLsb' 0 8

/-- `LEN = v[11:8]` (R80, R82). -/
def lenField (v : Word) : BitVec 4 := v.extractLsb' 8 4

/-- `RSV = v[31:12]` (R80). -/
def rsvField (v : Word) : BitVec 20 := v.extractLsb' 12 20

/-- The opcode map without MARS_KEY, which is the one row that has a LEN field (R85). -/
def opcodeMap : List (BitVec 8 × Instr) :=
  [(0x00, .nop), (0x01, .srst),
   (0x11, .marsEnc), (0x12, .marsDec), (0x13, .marsS), (0x14, .marsS0), (0x15, .marsS1), (0x16, .marsMask),
   (0x20, .salsaKey), (0x21, .salsaQr), (0x22, .salsaHash), (0x23, .salsaBlock), (0x24, .salsaStart),
   (0x25, .salsaXor),
   (0x30, .trivInit), (0x31, .trivClk), (0x32, .trivByte), (0x33, .trivXor)]

/-- `decode(v)` of R84, with its checks in R84's order. -/
def decode (v : Word) : Except Illegal Instr :=
  if rsvField v ≠ 0 then .error .reservedBits
  else if opField v = 0x10 then .ok (.marsKey (lenField v).toNat)
  else if lenField v ≠ 0 then .error .lenNotZero
  else match opcodeMap.lookup (opField v) with
    | some i => .ok i
    | none => .error .unassignedOp

/-- The `match` column of R85. -/
def Instr.rowMatch : Instr → Word
  | .nop => 0x00000000
  | .srst => 0x00000001
  | .marsKey _ => 0x00000010
  | .marsEnc => 0x00000011
  | .marsDec => 0x00000012
  | .marsS => 0x00000013
  | .marsS0 => 0x00000014
  | .marsS1 => 0x00000015
  | .marsMask => 0x00000016
  | .salsaKey => 0x00000020
  | .salsaQr => 0x00000021
  | .salsaHash => 0x00000022
  | .salsaBlock => 0x00000023
  | .salsaStart => 0x00000024
  | .salsaXor => 0x00000025
  | .trivInit => 0x00000030
  | .trivClk => 0x00000031
  | .trivByte => 0x00000032
  | .trivXor => 0x00000033

/-- The number in a command's LEN field: MARS_KEY's `n`, and 0 for every other command (R80). -/
def Instr.lenOf : Instr → Nat
  | .marsKey len => len
  | .nop | .srst | .marsEnc | .marsDec | .marsS | .marsS0 | .marsS1 | .marsMask
  | .salsaKey | .salsaQr | .salsaHash | .salsaBlock | .salsaStart | .salsaXor
  | .trivInit | .trivClk | .trivByte | .trivXor => 0

/-- The `mask` column of R85. -/
def Instr.rowMask : Instr → Word
  | .marsKey _ => 0xFFFFF0FF
  | .nop | .srst | .marsEnc | .marsDec | .marsS | .marsS0 | .marsS1 | .marsMask
  | .salsaKey | .salsaQr | .salsaHash | .salsaBlock | .salsaStart | .salsaXor
  | .trivInit | .trivClk | .trivByte | .trivXor => 0xFFFFFFFF

/-- The engines, and the commands that belong to none (R85). -/
inductive Family where
  | control | mars | salsa | trivium
deriving DecidableEq, Repr

/-- The `family` column of R85. -/
def Instr.family : Instr → Family
  | .nop | .srst => .control
  | .marsKey _ | .marsEnc | .marsDec | .marsS | .marsS0 | .marsS1 | .marsMask => .mars
  | .salsaKey | .salsaQr | .salsaHash | .salsaBlock | .salsaStart | .salsaXor => .salsa
  | .trivInit | .trivClk | .trivByte | .trivXor => .trivium

/-- The command word of a well-formed command: its row's `match`, with LEN in bits 11:8 (R80, R85, R88). -/
def encode (i : Instr) : Word := i.rowMatch ||| (BitVec.ofNat 32 i.lenOf <<< 8)

/-- The command that the decoder reads from a table row's word. Every command is one 32-bit word (R80), so the bits from
`nbits` up are 0 and a row longer than 32 bits has no command. -/
def decodeTableWord (nbits w : Nat) : Option Instr :=
  if nbits ≤ 32 then
    match decode (BitVec.ofNat 32 (w % 2 ^ nbits)) with
    | .ok i => some i
    | .error _ => none
  else none

end Sys2Proof
end

