-- ==== Sys2Proof/Machine/State.lean ====
section
/-! DEFINITION. The state of the core: R20's classes 1 to 3 engine by engine, the model's own view of the bus port and
of the reset input, and the reasons a step could stop. All of it is plain data. -/

namespace Sys2Proof.Machine

/-- The result codes a command leaves in STATUS.ERR (R39, R241). Codes 7 to 15 are never written (U5), so they have no
constructor; `ErrCode.code` gives the 4-bit number. -/
inductive ErrCode where
  | ok         -- 0
  | illegal    -- 1
  | keylen     -- 2
  | nokey      -- 3
  | nostream   -- 4
  | notinit    -- 5
  | exhausted  -- 6
deriving DecidableEq, Repr

/-- `s.TSTATE` (R38). The value 3 is never produced (U4), so it has no constructor. -/
inductive TState where
  | uninitialized  -- 0
  | initialized    -- 1: only inside TRIV_INIT (R23, U3)
  | producing      -- 2
deriving DecidableEq, Repr

/-- The MARS engine: staging and result registers (R25 to R28) and latched state (R29). -/
structure MarsState where
  mkey   : Vector Word 14   -- MKEY[0..13]
  mIn    : Vector Word 4    -- MIN[0..3]
  mOut   : Vector Word 4    -- MOUT[0..3]
  marg   : Word             -- MARG
  mres   : Word             -- MRES
  k      : Vector Word 40   -- s.K[0..39]
  mkeyed : Bool             -- s.MKEYED
  mklen  : BitVec 4         -- s.MKLEN
deriving DecidableEq, Repr

/-- The Salsa20 engine: staging and result registers (R30 to R33) and latched state (R34). -/
structure SalsaState where
  skey    : Vector Word 8    -- SKEY[0..7]
  snonce  : Vector Word 2    -- SNONCE[0..1]
  sbctr   : Vector Word 2    -- SBCTR[0..1]
  shin    : Vector Word 16   -- SHIN[0..15]
  shout   : Vector Word 16   -- SHOUT[0..15]
  sdin    : Word             -- SDIN, bits 31:8 reserved
  sdout   : Word             -- SDOUT, bits 31:8 read 0
  sk      : Vector Word 8    -- s.SK[0..7]
  skeyed  : Bool             -- s.SKEYED
  nl      : Vector Word 2    -- s.NL[0..1]
  bc      : BitVec 64        -- s.BC
  off     : BitVec 6         -- s.OFF
  ks      : Vector Word 16   -- s.KS[0..15]
  sstream : Bool             -- s.SSTREAM
  sexh    : Bool             -- s.SEXH
deriving DecidableEq, Repr

/-- The three Trivium shift registers (R37, R200). Logical position `p` (1-based) is bit `p - 1` of the vector. The
padding bits of the storage bytes are not state (R37, U2). -/
structure TrivRegs where
  r1 : BitVec 93    -- s.R1[1..93]
  r2 : BitVec 84    -- s.R2[1..84]
  r3 : BitVec 111   -- s.R3[1..111]
deriving DecidableEq, Repr

/-- The Trivium engine: staging and result registers (R35, R36) and latched state (R37, R38). -/
structure TriviumState where
  tiv    : Vector Word 3   -- TIV[0..2], TIV[2] bits 31:16 reserved
  tkey   : Vector Word 3   -- TKEY[0..2], TKEY[2] bits 31:16 reserved
  tdin   : Word            -- TDIN, bits 31:8 reserved
  tdout  : Word            -- TDOUT, bits 31:8 read 0
  regs   : TrivRegs        -- s.R1, s.R2, s.R3
  tstate : TState          -- s.TSTATE
deriving DecidableEq, Repr

/-- One bus access as the host issues it (R50): a 12-bit byte address, a transfer size in bytes, and for a write the byte
lane strobes and the 32-bit write data. -/
inductive Access where
  | read (addr : BitVec 12) (size : Nat)
  | write (addr : BitVec 12) (size : Nat) (strobes : BitVec 4) (data : Word)
deriving DecidableEq, Repr

/-- What the port answers to an access (R50): a read's data, the end of a write, or an error response (R245). -/
inductive Response where
  | data (w : Word)
  | done
  | busError (addr : BitVec 12)
deriving DecidableEq, Repr

/-- The machine. `err`, `mars`, `salsa` and `triv` are R20's classes 1 to 3: ID is a constant, STATUS is assembled from
them (R23) and CMD has no storage (R24). The last three fields are the model's own (assumption log 3): the accesses the
host has issued and the port has not yet served, oldest first; the levels the hardware reset input has at the coming
steps (`true` = asserted, an empty list = released); and the port's answer in the step just taken. -/
structure State where
  err      : ErrCode
  mars     : MarsState
  salsa    : SalsaState
  triv     : TriviumState
  port     : List Access
  resetPin : List Bool
  response : Option Response
deriving DecidableEq, Repr

/-- The faults of the machine: NONE. A command error is an ordinary transition, a bus error is a defined response, and no
encoding and no access has undefined behaviour (R247), so no constructor is needed and no step can end in a fault. -/
inductive Fault
deriving DecidableEq, Repr

/-- The refusals of the machine. -/
inductive Refusal where
  /-- Raised by an arm of `exec` whose command has no meaning yet; no arm raises it in this model. Safe: the run stops
  where the hardware goes on. -/
  | notModelled (mnemonic : String)
deriving DecidableEq, Repr

/-- The MARS engine after reset (R25 to R29, R43). -/
def MarsState.reset : MarsState :=
  { mkey := .replicate 14 0, mIn := .replicate 4 0, mOut := .replicate 4 0, marg := 0, mres := 0,
    k := .replicate 40 0, mkeyed := false, mklen := 0 }

/-- The Salsa20 engine after reset (R30 to R34, R43). -/
def SalsaState.reset : SalsaState :=
  { skey := .replicate 8 0, snonce := .replicate 2 0, sbctr := .replicate 2 0, shin := .replicate 16 0,
    shout := .replicate 16 0, sdin := 0, sdout := 0, sk := .replicate 8 0, skeyed := false, nl := .replicate 2 0,
    bc := 0, off := 0, ks := .replicate 16 0, sstream := false, sexh := false }

/-- The Trivium engine after reset (R35 to R38, R43). -/
def TriviumState.reset : TriviumState :=
  { tiv := .replicate 3 0, tkey := .replicate 3 0, tdin := 0, tdout := 0, regs := ⟨0, 0, 0⟩,
    tstate := .uninitialized }

/-- The machine right after reset (R43, R270): every register and latched item 0, no access issued, the reset input
released. -/
def State.reset : State :=
  { err := .ok, mars := .reset, salsa := .reset, triv := .reset, port := [], resetPin := [], response := none }

end Sys2Proof.Machine
end

