-- ==== Sys2Proof/Machine/Ops.lean ====
section
/-! DEFINITION. The spec's word primitives (R12, R13), one named update for each thing a command may write, and the two
ways every command ends (R240, R242). -/

namespace Sys2Proof.Machine

/-! ## Word primitives -/

/-- `rotl32(x, n)` of R12, written `x <<< n` in the spec's text. -/
def rotl32 (x : Word) (n : Nat) : Word :=
  let k := n % 32
  if k = 0 then x else (x <<< k) ||| (x >>> (32 - k))

/-- `rotr32(x, n)` of R12, written `x >>> n` in the spec's text. -/
def rotr32 (x : Word) (n : Nat) : Word := rotl32 x ((32 - n % 32) % 32)

/-- `byte(x, k) = x[8k+7 : 8k]` of R13. -/
def byte (x : Word) (k : Nat) : Byte := x.extractLsb' (8 * k) 8

/-- `LE32(b0, b1, b2, b3)` of R13. -/
def le32 (b0 b1 b2 b3 : Byte) : Word :=
  b0.setWidth 32 ||| (b1.setWidth 32 <<< 8) ||| (b2.setWidth 32 <<< 16) ||| (b3.setWidth 32 <<< 24)

/-- `zext_32(v)` of R13. -/
def zext32 {w : Nat} (v : BitVec w) : Word := v.setWidth 32

/-! ## What a command may write -/

/-- `s.ERR <- e` (R39). -/
def State.setErr (s : State) (e : ErrCode) : State := { s with err := e }

/-- `MOUT[0..3] <- v` (R27). -/
def State.setMOut (s : State) (v : Vector Word 4) : State := { s with mars := { s.mars with mOut := v } }

/-- `MRES <- w` (R28). -/
def State.setMRes (s : State) (w : Word) : State := { s with mars := { s.mars with mres := w } }

/-- The latched MARS state: `s.K`, `s.MKEYED` and `s.MKLEN` together (R29). -/
def State.latchMars (s : State) (k : Vector Word 40) (keyed : Bool) (len : BitVec 4) : State :=
  { s with mars := { s.mars with k := k, mkeyed := keyed, mklen := len } }

/-- `SHOUT[0..15] <- v` (R32). -/
def State.setShout (s : State) (v : Vector Word 16) : State := { s with salsa := { s.salsa with shout := v } }

/-- `SDOUT <- w` (R33). -/
def State.setSdout (s : State) (w : Word) : State := { s with salsa := { s.salsa with sdout := w } }

/-- The key a new Salsa20 instance latches, with no stream open and no position (R175). -/
def State.latchSalsa (s : State) (key : Vector Word 8) : State :=
  { s with salsa := { s.salsa with sk := key, skeyed := true, nl := .replicate 2 0, bc := 0, off := 0,
                                   ks := .replicate 16 0, sstream := false, sexh := false } }

/-- A stream opened at position 0 under a nonce (R179). -/
def State.openStream (s : State) (nonce : Vector Word 2) : State :=
  { s with salsa := { s.salsa with nl := nonce, bc := 0, off := 0, sexh := false, sstream := true } }

/-- `s.KS <- block` (R34, R180). -/
def State.setKs (s : State) (block : Vector Word 16) : State := { s with salsa := { s.salsa with ks := block } }

/-- The keystream position and the exhaustion flag (R34, R180). -/
def State.setPosition (s : State) (bc : BitVec 64) (off : BitVec 6) (exh : Bool) : State :=
  { s with salsa := { s.salsa with bc := bc, off := off, sexh := exh } }

/-- `TDOUT <- w` (R36). -/
def State.setTdout (s : State) (w : Word) : State := { s with triv := { s.triv with tdout := w } }

/-- `(s.R1, s.R2, s.R3) <- r` (R37). -/
def State.setTrivRegs (s : State) (r : TrivRegs) : State := { s with triv := { s.triv with regs := r } }

/-- `s.TSTATE <- t` (R38). -/
def State.setTState (s : State) (t : TState) : State := { s with triv := { s.triv with tstate := t } }

/-- Every register and latched item to its reset value (R43), the common effect of SRST (R101) and of the hardware reset
input (R270). The port's view of the outside is not the core's and stays. -/
def State.resetCore (s : State) : State :=
  { s with err := .ok, mars := .reset, salsa := .reset, triv := .reset }

/-! ## How a command ends -/

/-- A command that succeeds: `s.ERR <- OK` (R240). -/
def succeed (s : State) : Host.Outcome State Fault Refusal := .next (s.setErr .ok)

/-- `raise CmdError(code)` (R242): `s.ERR <- code` and the command ends. It is no trap: nothing is saved and nothing is
vectored (R240, R249). The state it is given holds what the command wrote before the raise. -/
def raiseCmdError (code : ErrCode) (s : State) : Host.Outcome State Fault Refusal := .next (s.setErr code)

end Sys2Proof.Machine
end

