-- ==== Sys2Proof/Machine/Control.lean ====
section
/-! DEFINITION. The meanings of the control commands (R100, R101). -/

namespace Sys2Proof.Machine

/-- NOP (R100): `s.ERR <- OK`, nothing else. -/
def execNop (s : State) : Host.Outcome State Fault Refusal := succeed s

/-- SRST (R101): every register and latched item to its reset value. -/
def execSrst (s : State) : Host.Outcome State Fault Refusal := succeed s.resetCore

end Sys2Proof.Machine
end

