-- ==== Sys2Proof/Config.lean ====
section
/-! DEFINITION. The two parameters that the spec leaves open (R9): the contents of the MARS S-box and the form of
Trivium's output bit. -/

namespace Sys2Proof

/-- A MARS S-box: a function from 0..511 to 32-bit words (R9, R110). -/
abbrev Sbox := BitVec 9 → Word

/-- The entries of `MARS_SBOX` that the spec leaves open (R9, R110, U6). It has no body: nothing can be proved of any of
its values. The two entries the spec does fix are put over it in `Machine.marsSbox`. Assumption log 1. -/
opaque Config.marsSboxOpen : Sbox

/-- The two forms of Trivium's output bit (R9, R207). -/
inductive ZForm where
  | doc      -- z is the XOR of the three taps, AND terms included
  | estream  -- z is the XOR of the three linear parts
deriving DecidableEq, Repr

/-- `TRIV_Z_FORM` of this hardware: `doc`, the normative default (R9, R207, C2). Assumption log 2. -/
def Config.trivZForm : ZForm := .doc

end Sys2Proof
end

