-- ==== Sys2Proof/Machine/Operands.lean ====
section
/-! DEFINITION. How a command reads its operands from staging registers: byte strings packed little-endian (R59), the
64-bit block counter, the MARS key words. -/

namespace Sys2Proof.Machine

/-- The first `n` key words, `MKEY[0..n-1]` (R25, R135). -/
def marsKeyWords (mkey : Vector Word 14) (n : Nat) : List Word := mkey.toList.take n

/-- The 32 Salsa20 key bytes: byte `j` is `byte(SKEY[j div 4], j mod 4)` (R30). -/
def skeyBytes (skey : Vector Word 8) : Vector Byte 32 :=
  .ofFn fun j : Fin 32 => byte skey[j.val / 4] (j.val % 4)

/-- The 8 nonce bytes: byte `j` is `byte(SNONCE[j div 4], j mod 4)` (R31). -/
def snonceBytes (snonce : Vector Word 2) : Vector Byte 8 :=
  .ofFn fun j : Fin 8 => byte snonce[j.val / 4] (j.val % 4)

/-- The counter of SALSA_BLOCK, `SBCTR[0] + 2^32 * SBCTR[1]` (R31). -/
def blockCounter (sbctr : Vector Word 2) : BitVec 64 :=
  sbctr[0].setWidth 64 + (sbctr[1].setWidth 64 <<< 32)

/-- The 10 bytes of the Trivium IV or key: byte `j` is `byte(REG[j div 4], j mod 4)` (R35). -/
def trivBytes (reg : Vector Word 3) : Vector Byte 10 :=
  .ofFn fun j : Fin 10 => byte reg[j.val / 4] (j.val % 4)

/-- Keystream byte `j` of a block, `byte(KS[j div 4], j mod 4)` (R34, R166). -/
def blockByte (ks : Vector Word 16) (j : BitVec 6) : Byte :=
  byte (ks[j.toNat / 4]'(by have := j.isLt; omega)) (j.toNat % 4)

/-- The message byte in bits 7:0 of SDIN or TDIN (R33, R36). -/
def messageByte (din : Word) : Byte := byte din 0

end Sys2Proof.Machine
end

