-- ==== Sys2Proof/Machine/MarsCipher.lean ====
section
/-! DEFINITION. The functions of the MARS engine (R110 to R130). Each takes the S-box as an argument, as R9 asks; the
commands give it `marsSbox`. Where the source is silent, the steps are those that the spec itself supplies from the
published algorithm (93_implementation_defined.md G1 to G8). -/

namespace Sys2Proof.Machine

/-- `MARS_SBOX` of this hardware: the open parameter with the two entries the spec fixes (R9, R110). Assumption log 1. -/
def marsSbox : Sbox := fun i =>
  if i = 2 then 0x84aa6c39 else if i = 270 then 0x0f59573e else Config.marsSboxOpen i

/-- `S(x) = MARS_SBOX[x[8:0]]` (R111). -/
def Mars.S (sbox : Sbox) (x : Word) : Word := sbox (x.extractLsb' 0 9)

/-- `S0(x) = MARS_SBOX[x[7:0]]` (R112). -/
def Mars.S0 (sbox : Sbox) (x : Word) : Word := sbox ((x.extractLsb' 0 8).setWidth 9)

/-- `S1(x) = MARS_SBOX[256 + x[7:0]]` (R113). -/
def Mars.S1 (sbox : Sbox) (x : Word) : Word := sbox (256 + (x.extractLsb' 0 8).setWidth 9)

/-- `MARS_B[0..3]` (R114). -/
def Mars.B : Vector Word 4 := #v[0xa4a8d57b, 0x5b5d193b, 0xc8a8309b, 0x73f9a978]

/-! ## Mask (R115) -/

/-- The low end of the run of bits equal to `v` that reaches down from bit `lo`: R115's first scan. -/
def Mars.runLo (w : Word) (v : Bool) : Nat → Nat
  | 0 => 0
  | lo + 1 => if w.getLsbD lo = v then Mars.runLo w v lo else lo + 1

/-- The high end of the run of bits equal to `v` that reaches up from bit `hi`: R115's second scan. It may go up `room`
more bits, up to bit 31. -/
def Mars.runHi (w : Word) (v : Bool) : (room hi : Nat) → Nat
  | 0, hi => hi
  | room + 1, hi => if w.getLsbD (hi + 1) = v then Mars.runHi w v room (hi + 1) else hi

/-- Whether R115 sets bit `l` (2 to 30) of the mask. -/
def Mars.maskBit (w : Word) (l : Nat) : Bool :=
  w.getLsbD (l - 1) == w.getLsbD l && w.getLsbD l == w.getLsbD (l + 1)
    && 10 ≤ Mars.runHi w (w.getLsbD l) (31 - l) l - Mars.runLo w (w.getLsbD l) l + 1

/-- `Mask(w)` (R115): `for l = 2 to 30`. -/
def Mars.mask (w : Word) : Word :=
  (List.range' 2 29).foldl (fun m l => if Mars.maskBit w l then m ||| (1#32 <<< l) else m) 0

/-! ## Key schedule (R116 to R121) -/

/-- R116, step 1: the working buffer, `T[n] = n` after the `n` key words and zeros above. -/
def Mars.initT (key : List Word) : Vector Word 15 :=
  .ofFn fun i => (key ++ [BitVec.ofNat 32 key.length]).getD i.val 0

/-- R117, step 2a: one linear pass, in place with `i` increasing. `(i-7) mod 15` is `(i+8) mod 15` and `(i-2) mod 15` is
`(i+13) mod 15`. -/
def Mars.linearPass (j : Nat) (t : Vector Word 15) : Vector Word 15 :=
  (List.finRange 15).foldl (fun t i =>
    t.set i.val (t[i.val] ^^^ rotl32 (t[(i.val + 8) % 15] ^^^ t[(i.val + 13) % 15]) 3
      ^^^ BitVec.ofNat 32 (4 * i.val + j))) t

/-- R118, one pass of step 2b: in place with `i` increasing. `(i-1) mod 15` is `(i+14) mod 15`. -/
def Mars.stirPass (sbox : Sbox) (t : Vector Word 15) : Vector Word 15 :=
  (List.finRange 15).foldl (fun t i =>
    t.set i.val (rotl32 (t[i.val] + Mars.S sbox t[(i.val + 14) % 15]) 9)) t

/-- R117 and R118 for one round index: the linear pass, then four stirring passes. -/
def Mars.diffuse (sbox : Sbox) (j : Nat) (t : Vector Word 15) : Vector Word 15 :=
  Nat.iterate (Mars.stirPass sbox) 4 (Mars.linearPass j t)

/-- R119, step 2c: ten schedule words from every fourth position of the buffer. -/
def Mars.extract (j : Fin 4) (t : Vector Word 15) (k : Vector Word 40) : Vector Word 40 :=
  (List.finRange 10).foldl (fun k i => k.set (10 * j.val + i.val) t[(4 * i.val) % 15]) k

/-- Steps 2a to 2c for `j = 0, 1, 2, 3` in order, the buffer carried from one to the next (R119, R121). -/
def Mars.expand (sbox : Sbox) (t : Vector Word 15) : Vector Word 40 :=
  ((List.finRange 4).foldl (fun (tk : Vector Word 15 × Vector Word 40) j =>
    let t' := Mars.diffuse sbox j.val tk.1
    (t', Mars.extract j t' tk.2)) (t, .replicate 40 0)).2

/-- R120 for one word: `ki` is `K[i]` before the step and `kPrev` is `K[i-1]`. The table index is taken before the two low
bits are forced (C3). -/
def Mars.fixWord (ki kPrev : Word) : Word :=
  let jj := ki.extractLsb' 0 2
  let w := ki ||| 3
  let r := (kPrev.extractLsb' 0 5).toNat
  let p := rotl32 (Mars.B[jj.toNat]'jj.isLt) r
  w ^^^ (p &&& Mars.mask w)

/-- R120, step 3: `for i = 5, 7, …, 35`, here `i = 2t + 5`. -/
def Mars.fixup (k : Vector Word 40) : Vector Word 40 :=
  (List.finRange 16).foldl (fun k t =>
    k.set (2 * t.val + 5) (Mars.fixWord k[2 * t.val + 5] k[2 * t.val + 4])) k

/-- `KeySchedule(k[0..n-1])` (R121). -/
def Mars.keySchedule (sbox : Sbox) (key : List Word) : Vector Word 40 :=
  Mars.fixup (Mars.expand sbox (Mars.initT key))

/-! ## Blocks -/

/-- The block `D[0..3] = (a, b, c, d)` of R122. -/
structure Block where
  a : Word
  b : Word
  c : Word
  d : Word
deriving DecidableEq, Repr

/-- A block from MIN's four words (R26). -/
def Block.ofWords (v : Vector Word 4) : Block := ⟨v[0], v[1], v[2], v[3]⟩

/-- MOUT's four words from a block (R27). -/
def Block.toWords (x : Block) : Vector Word 4 := #v[x.a, x.b, x.c, x.d]

/-- "rotate words" of section 3 of 41_mars.md. -/
def Block.rotate (x : Block) : Block := ⟨x.b, x.c, x.d, x.a⟩

/-- "unrotate words" of section 4 of 41_mars.md. -/
def Block.unrotate (x : Block) : Block := ⟨x.d, x.a, x.b, x.c⟩

/-- Four schedule words added to the block. -/
def Block.addKey (x : Block) (k0 k1 k2 k3 : Word) : Block := ⟨x.a + k0, x.b + k1, x.c + k2, x.d + k3⟩

/-- Four schedule words subtracted from the block. -/
def Block.subKey (x : Block) (k0 k1 k2 k3 : Word) : Block := ⟨x.a - k0, x.b - k1, x.c - k2, x.d - k3⟩

/-! ## Encryption (R122 to R126) -/

/-- Round `i` of R122. -/
def Mars.forwardRound (sbox : Sbox) (i : Nat) (x : Block) : Block :=
  let b := (x.b ^^^ Mars.S0 sbox x.a) + Mars.S1 sbox (x.a >>> 8)
  let c := x.c + Mars.S0 sbox (x.a >>> 16)
  let d := x.d ^^^ Mars.S1 sbox (x.a >>> 24)
  let a := rotr32 x.a 24
  let a := if i = 0 ∨ i = 4 then a + d else a
  let a := if i = 1 ∨ i = 5 then a + b else a
  Block.rotate ⟨a, b, c, d⟩

/-- Forward mixing (R122). -/
def Mars.forwardMix (sbox : Sbox) (k : Vector Word 40) (x : Block) : Block :=
  (List.range 8).foldl (fun x i => Mars.forwardRound sbox i x) (x.addKey k[0] k[1] k[2] k[3])

/-- The E-function (R123): `(L, M, R)`. -/
def Mars.E (sbox : Sbox) (x k1 k2 : Word) : Word × Word × Word :=
  let m := x + k1
  let r := rotl32 x 13 * k2
  let l := Mars.S sbox m
  let r := rotl32 r 5
  let m := rotl32 m (r.extractLsb' 0 5).toNat
  let l := l ^^^ r
  let r := rotl32 r 5
  let l := l ^^^ r
  let l := rotl32 l (r.extractLsb' 0 5).toNat
  (l, m, r)

/-- Round `i` of R124. -/
def Mars.coreRound (sbox : Sbox) (k : Vector Word 40) (i : Fin 16) (x : Block) : Block :=
  let e := Mars.E sbox x.a k[2 * i.val + 4] k[2 * i.val + 5]
  let l := e.1
  let m := e.2.1
  let r := e.2.2
  let a := rotl32 x.a 13
  let c := x.c + m
  if i.val < 8 then Block.rotate ⟨a, x.b + l, c, x.d ^^^ r⟩
  else Block.rotate ⟨a, x.b ^^^ r, c, x.d + l⟩

/-- The cryptographic core (R124). -/
def Mars.coreRounds (sbox : Sbox) (k : Vector Word 40) (x : Block) : Block :=
  (List.finRange 16).foldl (fun x i => Mars.coreRound sbox k i x) x

/-- Round `i` of R125. -/
def Mars.backwardRound (sbox : Sbox) (i : Nat) (x : Block) : Block :=
  let a := if i = 2 ∨ i = 6 then x.a - x.d else x.a
  let a := if i = 3 ∨ i = 7 then a - x.b else a
  let b := x.b ^^^ Mars.S1 sbox a
  let c := x.c - Mars.S0 sbox (a >>> 24)
  let d := (x.d - Mars.S1 sbox (a >>> 16)) ^^^ Mars.S0 sbox (a >>> 8)
  Block.rotate ⟨rotl32 a 24, b, c, d⟩

/-- Backward mixing (R125). -/
def Mars.backwardMix (sbox : Sbox) (k : Vector Word 40) (x : Block) : Block :=
  ((List.range 8).foldl (fun x i => Mars.backwardRound sbox i x) x).subKey k[36] k[37] k[38] k[39]

/-- `Encrypt(K, (a, b, c, d))` (R126). -/
def Mars.encrypt (sbox : Sbox) (k : Vector Word 40) (x : Block) : Block :=
  Mars.backwardMix sbox k (Mars.coreRounds sbox k (Mars.forwardMix sbox k x))

/-! ## Decryption (R127 to R130) -/

/-- Round `i` of R127. -/
def Mars.invBackwardRound (sbox : Sbox) (i : Nat) (y : Block) : Block :=
  let x := y.unrotate
  let a := rotr32 x.a 24
  let d := (x.d ^^^ Mars.S0 sbox (a >>> 8)) + Mars.S1 sbox (a >>> 16)
  let c := x.c + Mars.S0 sbox (a >>> 24)
  let b := x.b ^^^ Mars.S1 sbox a
  let a := if i = 2 ∨ i = 6 then a + d else a
  let a := if i = 3 ∨ i = 7 then a + b else a
  ⟨a, b, c, d⟩

/-- Inverse backward mixing (R127): rounds 7 down to 0. -/
def Mars.invBackwardMix (sbox : Sbox) (k : Vector Word 40) (x : Block) : Block :=
  (List.range 8).reverse.foldl (fun x i => Mars.invBackwardRound sbox i x) (x.addKey k[36] k[37] k[38] k[39])

/-- Round `i` of R128: E is applied to the `D[0]` of encryption, after the rotation is undone. -/
def Mars.invCoreRound (sbox : Sbox) (k : Vector Word 40) (i : Fin 16) (y : Block) : Block :=
  let x := y.unrotate
  let a := rotr32 x.a 13
  let e := Mars.E sbox a k[2 * i.val + 4] k[2 * i.val + 5]
  let l := e.1
  let m := e.2.1
  let r := e.2.2
  let c := x.c - m
  if i.val < 8 then ⟨a, x.b - l, c, x.d ^^^ r⟩
  else ⟨a, x.b ^^^ r, c, x.d - l⟩

/-- The inverse core (R128): rounds 15 down to 0. -/
def Mars.invCoreRounds (sbox : Sbox) (k : Vector Word 40) (x : Block) : Block :=
  (List.finRange 16).reverse.foldl (fun x i => Mars.invCoreRound sbox k i x) x

/-- Round `i` of R129. -/
def Mars.invForwardRound (sbox : Sbox) (i : Nat) (y : Block) : Block :=
  let x := y.unrotate
  let a := if i = 0 ∨ i = 4 then x.a - x.d else x.a
  let a := if i = 1 ∨ i = 5 then a - x.b else a
  let a := rotl32 a 24
  let d := x.d ^^^ Mars.S1 sbox (a >>> 24)
  let c := x.c - Mars.S0 sbox (a >>> 16)
  let b := (x.b - Mars.S1 sbox (a >>> 8)) ^^^ Mars.S0 sbox a
  ⟨a, b, c, d⟩

/-- Inverse forward mixing (R129): rounds 7 down to 0. -/
def Mars.invForwardMix (sbox : Sbox) (k : Vector Word 40) (x : Block) : Block :=
  ((List.range 8).reverse.foldl (fun x i => Mars.invForwardRound sbox i x) x).subKey k[0] k[1] k[2] k[3]

/-- `Decrypt(K, (a, b, c, d))` (R130). -/
def Mars.decrypt (sbox : Sbox) (k : Vector Word 40) (x : Block) : Block :=
  Mars.invForwardMix sbox k (Mars.invCoreRounds sbox k (Mars.invBackwardMix sbox k x))

end Sys2Proof.Machine
end

