-- ==== Sys2Proof/Machine/Mars.lean ====
section
/-! DEFINITION. The meanings of the MARS commands (R135 to R141). -/

namespace Sys2Proof.Machine

/-- MARS_KEY n (R135): a length outside 4..14 discards the schedule held before and raises KEYLEN. -/
def execMarsKey (len : Nat) (s : State) : Host.Outcome State Fault Refusal :=
  if len < 4 ∨ 14 < len then raiseCmdError .keylen (s.latchMars (.replicate 40 0) false 0)
  else succeed (s.latchMars (Mars.keySchedule marsSbox (marsKeyWords s.mars.mkey len)) true (BitVec.ofNat 4 len))

/-- MARS_ENC (R136). -/
def execMarsEnc (s : State) : Host.Outcome State Fault Refusal :=
  if s.mars.mkeyed then
    succeed (s.setMOut (Mars.encrypt marsSbox s.mars.k (.ofWords s.mars.mIn)).toWords)
  else raiseCmdError .nokey s

/-- MARS_DEC (R137). -/
def execMarsDec (s : State) : Host.Outcome State Fault Refusal :=
  if s.mars.mkeyed then
    succeed (s.setMOut (Mars.decrypt marsSbox s.mars.k (.ofWords s.mars.mIn)).toWords)
  else raiseCmdError .nokey s

/-- MARS_S (R138). -/
def execMarsS (s : State) : Host.Outcome State Fault Refusal := succeed (s.setMRes (Mars.S marsSbox s.mars.marg))

/-- MARS_S0 (R139). -/
def execMarsS0 (s : State) : Host.Outcome State Fault Refusal := succeed (s.setMRes (Mars.S0 marsSbox s.mars.marg))

/-- MARS_S1 (R140). -/
def execMarsS1 (s : State) : Host.Outcome State Fault Refusal := succeed (s.setMRes (Mars.S1 marsSbox s.mars.marg))

/-- MARS_MASK (R141). -/
def execMarsMask (s : State) : Host.Outcome State Fault Refusal := succeed (s.setMRes (Mars.mask s.mars.marg))

end Sys2Proof.Machine
end

