-- ==== Sys2Proof/Machine/SalsaCipher.lean ====
section
/-! DEFINITION. The functions of the Salsa20 engine (R160 to R168). -/

namespace Sys2Proof.Machine

/-- The quarter round (R160). -/
def Salsa.quarterRound (y0 y1 y2 y3 : Word) : Word × Word × Word × Word :=
  let z1 := y1 ^^^ rotl32 (y0 + y3) 7
  let z2 := y2 ^^^ rotl32 (z1 + y0) 9
  let z3 := y3 ^^^ rotl32 (z2 + z1) 13
  let z0 := y0 ^^^ rotl32 (z3 + z2) 18
  (z0, z1, z2, z3)

/-- The quarter round applied to the words at four places, each result written back to its place (R161, R162). -/
def Salsa.quarterAt (x : Vector Word 16) (i0 i1 i2 i3 : Fin 16) : Vector Word 16 :=
  let z := Salsa.quarterRound x[i0.val] x[i1.val] x[i2.val] x[i3.val]
  (((x.set i0.val z.1).set i1.val z.2.1).set i2.val z.2.2.1).set i3.val z.2.2.2

/-- The column round (R161). -/
def Salsa.columnRound (x : Vector Word 16) : Vector Word 16 :=
  let x := Salsa.quarterAt x 0 4 8 12
  let x := Salsa.quarterAt x 5 9 13 1
  let x := Salsa.quarterAt x 10 14 2 6
  Salsa.quarterAt x 15 3 7 11

/-- The row round (R162). -/
def Salsa.rowRound (x : Vector Word 16) : Vector Word 16 :=
  let x := Salsa.quarterAt x 0 1 2 3
  let x := Salsa.quarterAt x 5 6 7 4
  let x := Salsa.quarterAt x 10 11 8 9
  Salsa.quarterAt x 15 12 13 14

/-- `double_round(x) = row_round(column_round(x))` (R163). -/
def Salsa.doubleRound (x : Vector Word 16) : Vector Word 16 := Salsa.rowRound (Salsa.columnRound x)

/-- "expa", read little-endian (R164). -/
def Salsa.sigma0 : Word := 0x61707865
/-- "nd 3", read little-endian (R164). -/
def Salsa.sigma1 : Word := 0x3320646e
/-- "2-by", read little-endian (R164). -/
def Salsa.sigma2 : Word := 0x79622d32
/-- "te k", read little-endian (R164). -/
def Salsa.sigma3 : Word := 0x6b206574

/-- `expand(SK, N, c)` (R165). -/
def Salsa.expand (sk : Vector Word 8) (n : Vector Word 2) (c : BitVec 64) : Vector Word 16 :=
  #v[Salsa.sigma0, sk[0], sk[1], sk[2], sk[3], Salsa.sigma1, n[0], n[1],
     c.extractLsb' 0 32, c.extractLsb' 32 32, Salsa.sigma2, sk[4], sk[5], sk[6], sk[7], Salsa.sigma3]

/-- `salsa20_hash(w)`: ten double rounds, then the input words added back (R166). -/
def Salsa.hash (w : Vector Word 16) : Vector Word 16 :=
  let x := Nat.iterate Salsa.doubleRound 10 w
  .ofFn fun i => x[i.val] + w[i.val]

/-- `keystream_block(SK, N, c)` (R167). -/
def Salsa.keystreamBlock (sk : Vector Word 8) (n : Vector Word 2) (c : BitVec 64) : Vector Word 16 :=
  Salsa.hash (Salsa.expand sk n c)

/-- The keystream byte at position `i` of a stream: byte `i mod 64` of block `i div 64` (R168). DESIGN CHOICE beyond byte
2^70 - 1, where R168 defines nothing: the block number is taken modulo 2^64. No command comes there, since SALSA_XOR
raises EXHAUSTED (R180). Assumption log 16. -/
def Salsa.streamByte (sk : Vector Word 8) (n : Vector Word 2) (i : Nat) : Byte :=
  blockByte (Salsa.keystreamBlock sk n (BitVec.ofNat 64 (i / 64))) (BitVec.ofNat 6 (i % 64))

/-- A message encrypted from position `i` of a stream on. -/
def Salsa.encryptFrom (sk : Vector Word 8) (n : Vector Word 2) : (i : Nat) → List Byte → List Byte
  | _, [] => []
  | i, m :: ms => (m ^^^ Salsa.streamByte sk n i) :: Salsa.encryptFrom sk n (i + 1) ms

/-- `salsa20_encrypt(SK, N, m)` (R168), the spec's for messages of at most 2^70 bytes and the model's choice for longer
ones (assumption log 16). Decryption is the same function (R87). -/
def Salsa.encrypt (sk : Vector Word 8) (n : Vector Word 2) (m : List Byte) : List Byte :=
  Salsa.encryptFrom sk n 0 m

end Sys2Proof.Machine
end

