-- ==== Sys2Proof/Machine/Salsa.lean ====
section
/-! DEFINITION. The meanings of the Salsa20 commands (R175 to R180). -/

namespace Sys2Proof.Machine

/-- SALSA_KEY (R175). -/
def execSalsaKey (s : State) : Host.Outcome State Fault Refusal := succeed (s.latchSalsa s.salsa.skey)

/-- SALSA_QR (R176): words 0 to 3 of SHIN to words 0 to 3 of SHOUT; the other words of SHOUT stay. -/
def execSalsaQr (s : State) : Host.Outcome State Fault Refusal :=
  let z := Salsa.quarterRound s.salsa.shin[0] s.salsa.shin[1] s.salsa.shin[2] s.salsa.shin[3]
  succeed (s.setShout ((((s.salsa.shout.set 0 z.1).set 1 z.2.1).set 2 z.2.2.1).set 3 z.2.2.2))

/-- SALSA_HASH (R177). -/
def execSalsaHash (s : State) : Host.Outcome State Fault Refusal := succeed (s.setShout (Salsa.hash s.salsa.shin))

/-- SALSA_BLOCK (R178): the latched key, the nonce and the counter read live. -/
def execSalsaBlock (s : State) : Host.Outcome State Fault Refusal :=
  if s.salsa.skeyed then
    succeed (s.setShout (Salsa.keystreamBlock s.salsa.sk s.salsa.snonce (blockCounter s.salsa.sbctr)))
  else raiseCmdError .nokey s

/-- SALSA_START (R179). -/
def execSalsaStart (s : State) : Host.Outcome State Fault Refusal :=
  if s.salsa.skeyed then succeed (s.openStream s.salsa.snonce)
  else raiseCmdError .nokey s

/-- The first half of SALSA_XOR: at offset 0 the keystream block is made anew (R180). -/
def refillKs (s : State) : State :=
  if s.salsa.off = 0 then s.setKs (Salsa.keystreamBlock s.salsa.sk s.salsa.nl s.salsa.bc) else s

/-- The second half of SALSA_XOR: the position after one byte (R180). -/
def advanceStream (s : State) : State :=
  if s.salsa.off = 63 then
    if s.salsa.bc = BitVec.allOnes 64 then s.setPosition s.salsa.bc 0 true
    else s.setPosition (s.salsa.bc + 1) 0 s.salsa.sexh
  else s.setPosition s.salsa.bc (s.salsa.off + 1) s.salsa.sexh

/-- SALSA_XOR (R180). -/
def execSalsaXor (s : State) : Host.Outcome State Fault Refusal :=
  if s.salsa.sstream = false then raiseCmdError .nostream s
  else if s.salsa.sexh then raiseCmdError .exhausted s
  else
    let s := refillKs s
    let s := s.setSdout (zext32 (messageByte s.salsa.sdin ^^^ blockByte s.salsa.ks s.salsa.off))
    succeed (advanceStream s)

end Sys2Proof.Machine
end

