-- ==== Sys2Proof/Machine/TriviumCipher.lean ====
section
/-! DEFINITION. The functions of the Trivium engine (R200 to R214). A register is a bit vector whose bit `p - 1` is
logical position `p`. -/

namespace Sys2Proof.Machine

/-- `bit(Ri, p)`, the bit at logical position `p` (R201). -/
def Triv.bit {n : Nat} (r : BitVec n) (p : Nat) : Bool := r.getLsbD (p - 1)

/-- The register with the bit at logical position `p` replaced (R210's assignments). -/
def Triv.setBit {n : Nat} (r : BitVec n) (p : Nat) (b : Bool) : BitVec n :=
  if b then r ||| (1#n <<< (p - 1)) else r &&& ~~~(1#n <<< (p - 1))

/-- `shift_in(Ri, f)`: position `p` moves to `p + 1`, `f` enters at position 1, and the top bit leaves (R202). -/
def Triv.shiftIn {n : Nat} (r : BitVec n) (f : Bool) : BitVec n := (r <<< 1) ||| (BitVec.ofBool f).setWidth n

/-- Byte `k` of a register's padded storage: position `p` is bit `7 - ((p-1) mod 8)` of byte `(p-1) div 8`, and padding
bits are 0 (R37, R201). -/
def Triv.storageByte {n : Nat} (r : BitVec n) (k : Nat) : Byte := (r.extractLsb' (8 * k) 8).reverse

/-- The linear parts of R203. -/
def Triv.lin1 (r : TrivRegs) : Bool := Triv.bit r.r1 66 ^^ Triv.bit r.r1 93
/-- R203. -/
def Triv.lin2 (r : TrivRegs) : Bool := Triv.bit r.r2 69 ^^ Triv.bit r.r2 84
/-- R203. -/
def Triv.lin3 (r : TrivRegs) : Bool := Triv.bit r.r3 66 ^^ Triv.bit r.r3 111

/-- The taps of R204. -/
def Triv.tap1 (r : TrivRegs) : Bool := Triv.lin1 r ^^ (Triv.bit r.r1 91 && Triv.bit r.r1 92)
/-- R204. -/
def Triv.tap2 (r : TrivRegs) : Bool := Triv.lin2 r ^^ (Triv.bit r.r2 82 && Triv.bit r.r2 83)
/-- R204. -/
def Triv.tap3 (r : TrivRegs) : Bool := Triv.lin3 r ^^ (Triv.bit r.r3 109 && Triv.bit r.r3 110)

/-- The feedback bits of R205: `f1` enters R2, `f2` enters R3 and `f3` enters R1. -/
def Triv.f1 (r : TrivRegs) : Bool := Triv.tap1 r ^^ Triv.bit r.r2 78
/-- R205. -/
def Triv.f2 (r : TrivRegs) : Bool := Triv.tap2 r ^^ Triv.bit r.r3 87
/-- R205. -/
def Triv.f3 (r : TrivRegs) : Bool := Triv.tap3 r ^^ Triv.bit r.r1 69

/-- The register update of one clock, every part of it from the values before the clock (R206). -/
def Triv.update (r : TrivRegs) : TrivRegs :=
  { r1 := Triv.shiftIn r.r1 (Triv.f3 r), r2 := Triv.shiftIn r.r2 (Triv.f1 r), r3 := Triv.shiftIn r.r3 (Triv.f2 r) }

/-- The output bit of one clock in either form (R207). -/
def Triv.output (form : ZForm) (r : TrivRegs) : Bool :=
  match form with
  | .doc => Triv.tap1 r ^^ Triv.tap2 r ^^ Triv.tap3 r
  | .estream => Triv.lin1 r ^^ Triv.lin2 r ^^ Triv.lin3 r

/-- `clock()`: the registers after one clock, and the keystream bit (R208). -/
def Triv.clock (form : ZForm) (r : TrivRegs) : TrivRegs × Bool := (Triv.update r, Triv.output form r)

/-- The registers after `n` clocks whose outputs are discarded (R211). -/
def Triv.clocks (form : ZForm) (n : Nat) (r : TrivRegs) : TrivRegs :=
  Nat.iterate (fun r => (Triv.clock form r).1) n r

/-- One clock of `clock_byte`: `v <- ((v << 1) | clock()) & 0xFF` (R209). -/
def Triv.clockInto (form : ZForm) (rv : TrivRegs × Byte) : TrivRegs × Byte :=
  let c := Triv.clock form rv.1
  (c.1, (rv.2 <<< 1) ||| (BitVec.ofBool c.2).setWidth 8)

/-- `clock_byte()`: eight clocks, the first bit the most significant (R209). -/
def Triv.clockByte (form : ZForm) (r : TrivRegs) : TrivRegs × Byte :=
  Nat.iterate (Triv.clockInto form) 8 (r, 0)

/-- Ten bytes copied into storage bytes 0 to 9 of a register of zeros: `R[8k + m + 1] <- b[k][7 - m]` (R210). -/
def Triv.load80 (n : Nat) (b : Vector Byte 10) : BitVec n :=
  (List.finRange 10).foldl (fun r k =>
    (List.range 8).foldl (fun r m => Triv.setBit r (8 * k.val + m + 1) (b[k.val].getLsbD (7 - m))) r) 0

/-- The load of R210: the IV into R1, the key into R2 and the one fixed bit, position 111, into R3. -/
def Triv.load (iv key : Vector Byte 10) : TrivRegs :=
  { r1 := Triv.load80 93 iv, r2 := Triv.load80 84 key, r3 := Triv.setBit 0 111 true }

/-- `construct(iv, key)`: the load, then the 1152 warm-up clocks (R211, R212). -/
def Triv.construct (form : ZForm) (iv key : Vector Byte 10) : TrivRegs :=
  Triv.clocks form 1152 (Triv.load iv key)

/-- `trivium_encrypt(m)` from given registers: the output bytes, and the registers after them (R213). Decryption is the
same function on freshly constructed registers (R214). -/
def Triv.encrypt (form : ZForm) : List Byte → TrivRegs → List Byte × TrivRegs
  | [], r => ([], r)
  | m :: ms, r =>
    let c := Triv.clockByte form r
    let rest := Triv.encrypt form ms c.1
    ((m ^^^ c.2) :: rest.1, rest.2)

end Sys2Proof.Machine
end

