-- ==== Sys2Proof/Machine/Trivium.lean ====
section
/-! DEFINITION. The meanings of the Trivium commands (R220 to R223). -/

namespace Sys2Proof.Machine

/-- TRIV_INIT (R220): load, warm up, *producing*. The *initialized* state between them is not observable (U3). -/
def execTrivInit (s : State) : Host.Outcome State Fault Refusal :=
  let s := (s.setTrivRegs (Triv.load (trivBytes s.triv.tiv) (trivBytes s.triv.tkey))).setTState .initialized
  let s := s.setTrivRegs (Triv.clocks Config.trivZForm 1152 s.triv.regs)
  succeed (s.setTState .producing)

/-- TRIV_CLK (R221). -/
def execTrivClk (s : State) : Host.Outcome State Fault Refusal :=
  if s.triv.tstate = .producing then
    let c := Triv.clock Config.trivZForm s.triv.regs
    succeed ((s.setTrivRegs c.1).setTdout (zext32 (BitVec.ofBool c.2)))
  else raiseCmdError .notinit s

/-- TRIV_BYTE (R222). -/
def execTrivByte (s : State) : Host.Outcome State Fault Refusal :=
  if s.triv.tstate = .producing then
    let c := Triv.clockByte Config.trivZForm s.triv.regs
    succeed ((s.setTrivRegs c.1).setTdout (zext32 c.2))
  else raiseCmdError .notinit s

/-- TRIV_XOR (R223). -/
def execTrivXor (s : State) : Host.Outcome State Fault Refusal :=
  if s.triv.tstate = .producing then
    let c := Triv.clockByte Config.trivZForm s.triv.regs
    succeed ((s.setTrivRegs c.1).setTdout (zext32 (messageByte s.triv.tdin ^^^ c.2)))
  else raiseCmdError .notinit s

end Sys2Proof.Machine
end

