-- ==== Sys2Proof/Machine/Dispatch.lean ====
section
/-! DEFINITION. One arm per command: what each does to the state. -/

namespace Sys2Proof.Machine

/-- The effect of a decoded command, taken whole at its write to CMD (R40, R58). -/
def exec (i : Instr) (s : State) : Host.Outcome State Fault Refusal :=
  match i with
  | .nop => Sys2Proof.Machine.execNop s
  | .srst => Sys2Proof.Machine.execSrst s
  | .marsKey len => Sys2Proof.Machine.execMarsKey len s
  | .marsEnc => Sys2Proof.Machine.execMarsEnc s
  | .marsDec => Sys2Proof.Machine.execMarsDec s
  | .marsS => Sys2Proof.Machine.execMarsS s
  | .marsS0 => Sys2Proof.Machine.execMarsS0 s
  | .marsS1 => Sys2Proof.Machine.execMarsS1 s
  | .marsMask => Sys2Proof.Machine.execMarsMask s
  | .salsaKey => Sys2Proof.Machine.execSalsaKey s
  | .salsaQr => Sys2Proof.Machine.execSalsaQr s
  | .salsaHash => Sys2Proof.Machine.execSalsaHash s
  | .salsaBlock => Sys2Proof.Machine.execSalsaBlock s
  | .salsaStart => Sys2Proof.Machine.execSalsaStart s
  | .salsaXor => Sys2Proof.Machine.execSalsaXor s
  | .trivInit => Sys2Proof.Machine.execTrivInit s
  | .trivClk => Sys2Proof.Machine.execTrivClk s
  | .trivByte => Sys2Proof.Machine.execTrivByte s
  | .trivXor => Sys2Proof.Machine.execTrivXor s

end Sys2Proof.Machine
end

