-- ==== Sys2Proof/Machine/AddressMap.lean ====
section
/-! DEFINITION. The host-visible registers and the address map of the 4 KiB window (R51, R52). -/

namespace Sys2Proof.Machine

/-- A register of the window (R52). -/
inductive Reg where
  | id | status | cmd
  | mkey (i : Fin 14) | mIn (i : Fin 4) | mOut (i : Fin 4) | marg | mres
  | skey (i : Fin 8) | snonce (i : Fin 2) | sbctr (i : Fin 2) | shin (i : Fin 16) | shout (i : Fin 16) | sdin | sdout
  | tiv (i : Fin 3) | tkey (i : Fin 3) | tdin | tdout
deriving DecidableEq, Repr

/-- A register's kind of access (R52). -/
inductive RegKind where
  | readWrite | readOnly | writeOnly
deriving DecidableEq, Repr

/-- The access column of R52. -/
def Reg.kind : Reg → RegKind
  | .id | .status | .mOut _ | .mres | .shout _ | .sdout | .tdout => .readOnly
  | .cmd => .writeOnly
  | .mkey _ | .mIn _ | .marg | .skey _ | .snonce _ | .sbctr _ | .shin _ | .sdin | .tiv _ | .tkey _ | .tdin => .readWrite

/-- The bits of a register that are not reserved (R21, R33, R35, R36, R55). -/
def Reg.mask : Reg → Word
  | .sdin | .sdout | .tdin | .tdout => 0x000000FF
  | .tiv i | .tkey i => if i = 2 then 0x0000FFFF else 0xFFFFFFFF
  | .status => 0x0000FF3F
  | .id | .cmd | .mkey _ | .mIn _ | .mOut _ | .marg | .mres
  | .skey _ | .snonce _ | .sbctr _ | .shin _ | .shout _ => 0xFFFFFFFF

/-- The offset column of R52. -/
def Reg.offset : Reg → Nat
  | .id => 0x000
  | .status => 0x004
  | .cmd => 0x008
  | .mkey i => 0x100 + 4 * i.val
  | .mIn i => 0x140 + 4 * i.val
  | .mOut i => 0x150 + 4 * i.val
  | .marg => 0x160
  | .mres => 0x164
  | .skey i => 0x200 + 4 * i.val
  | .snonce i => 0x220 + 4 * i.val
  | .sbctr i => 0x228 + 4 * i.val
  | .shin i => 0x240 + 4 * i.val
  | .shout i => 0x280 + 4 * i.val
  | .sdin => 0x2C0
  | .sdout => 0x2C4
  | .tiv i => 0x300 + 4 * i.val
  | .tkey i => 0x310 + 4 * i.val
  | .tdin => 0x320
  | .tdout => 0x324

/-- A register's 12-bit bus address. -/
def Reg.addr (r : Reg) : BitVec 12 := BitVec.ofNat 12 r.offset

/-- The element of an array of `n` registers from word `base` of the window on, at word `w` of it. -/
def elementAt (n base w : Nat) : Option (Fin n) :=
  if h : base ≤ w ∧ w < base + n then some ⟨w - base, by omega⟩ else none

/-- The register at word `w` of the window: R52 read by word index (offset div 4). -/
def regAtWord (w : Nat) : Option Reg :=
  if w = 0x000 then some .id
  else if w = 0x001 then some .status
  else if w = 0x002 then some .cmd
  else if w = 0x058 then some .marg
  else if w = 0x059 then some .mres
  else if w = 0x0B0 then some .sdin
  else if w = 0x0B1 then some .sdout
  else if w = 0x0C8 then some .tdin
  else if w = 0x0C9 then some .tdout
  else ((elementAt 14 0x040 w).map Reg.mkey).or <| ((elementAt 4 0x050 w).map Reg.mIn).or <|
    ((elementAt 4 0x054 w).map Reg.mOut).or <| ((elementAt 8 0x080 w).map Reg.skey).or <|
    ((elementAt 2 0x088 w).map Reg.snonce).or <| ((elementAt 2 0x08A w).map Reg.sbctr).or <|
    ((elementAt 16 0x090 w).map Reg.shin).or <| ((elementAt 16 0x0A0 w).map Reg.shout).or <|
    ((elementAt 3 0x0C0 w).map Reg.tiv).or <| ((elementAt 3 0x0C4 w).map Reg.tkey)

/-- The register mapped at a bus address, none where the address is unmapped or not a multiple of 4 (R52, R53). -/
def regAt (addr : BitVec 12) : Option Reg :=
  if addr.toNat % 4 = 0 then regAtWord (addr.toNat / 4) else none

end Sys2Proof.Machine
end

