-- ==== Sys2Proof/Machine/Flags.lean ====
section
/-! DEFINITION. The numbers of the error codes and states, and the STATUS word assembled from the latched state (R23). -/

namespace Sys2Proof.Machine

/-- The 4-bit code of a result (R241). -/
def ErrCode.code : ErrCode → BitVec 4
  | .ok => 0
  | .illegal => 1
  | .keylen => 2
  | .nokey => 3
  | .nostream => 4
  | .notinit => 5
  | .exhausted => 6

/-- The 2-bit number of a Trivium state (R38). -/
def TState.code : TState → BitVec 2
  | .uninitialized => 0
  | .initialized => 1
  | .producing => 2

/-- One flag as a word: bit 0 (R23). -/
def flagWord (b : Bool) : Word := zext32 (BitVec.ofBool b)

/-- The value STATUS reads:
`MKEYED | SKEYED<<1 | SSTREAM<<2 | SEXH<<3 | TSTATE<<4 | ERR<<8 | MKLEN<<12` (R23). -/
def statusWord (s : State) : Word :=
  flagWord s.mars.mkeyed ||| (flagWord s.salsa.skeyed <<< 1) ||| (flagWord s.salsa.sstream <<< 2)
    ||| (flagWord s.salsa.sexh <<< 3) ||| (zext32 s.triv.tstate.code <<< 4) ||| (zext32 s.err.code <<< 8)
    ||| (zext32 s.mars.mklen <<< 12)

end Sys2Proof.Machine
end

