-- ==== Sys2Proof/Machine/Registers.lean ====
section
/-! DEFINITION. Reading and writing a register of the window (R54, R55): the one home of every read and every write that
the host can make, the command that a write to CMD runs apart. -/

namespace Sys2Proof.Machine

/-- The constant of ID (R22). -/
def idValue : Word := 0x424C5631

/-- The stored value of a register (R20 to R36); STATUS is assembled (R23) and CMD has no storage (R24). -/
def storedReg (r : Reg) (s : State) : Word :=
  match r with
  | .id => idValue
  | .status => statusWord s
  | .cmd => 0
  | .mkey i => s.mars.mkey[i.val]
  | .mIn i => s.mars.mIn[i.val]
  | .mOut i => s.mars.mOut[i.val]
  | .marg => s.mars.marg
  | .mres => s.mars.mres
  | .skey i => s.salsa.skey[i.val]
  | .snonce i => s.salsa.snonce[i.val]
  | .sbctr i => s.salsa.sbctr[i.val]
  | .shin i => s.salsa.shin[i.val]
  | .shout i => s.salsa.shout[i.val]
  | .sdin => s.salsa.sdin
  | .sdout => s.salsa.sdout
  | .tiv i => s.triv.tiv[i.val]
  | .tkey i => s.triv.tkey[i.val]
  | .tdin => s.triv.tdin
  | .tdout => s.triv.tdout

/-- `x[NAME]`, what a legal read of a register returns: its value with reserved bits as 0 (R21, R54). -/
def readReg (r : Reg) (s : State) : Word := storedReg r s &&& r.mask

/-- `x[NAME] <- v`, a legal write: a read-write register takes `v` with its reserved bits cleared, and a write to a
read-only register is ignored (R55). A write to CMD stores nothing (R24); the command it runs is `runCommand`. -/
def writeReg (r : Reg) (v : Word) (s : State) : State :=
  match r with
  | .id | .status | .cmd | .mOut _ | .mres | .shout _ | .sdout | .tdout => s
  | .mkey i => { s with mars := { s.mars with mkey := s.mars.mkey.set i.val (v &&& Reg.mask (.mkey i)) } }
  | .mIn i => { s with mars := { s.mars with mIn := s.mars.mIn.set i.val (v &&& Reg.mask (.mIn i)) } }
  | .marg => { s with mars := { s.mars with marg := v &&& Reg.mask .marg } }
  | .skey i => { s with salsa := { s.salsa with skey := s.salsa.skey.set i.val (v &&& Reg.mask (.skey i)) } }
  | .snonce i => { s with salsa := { s.salsa with snonce := s.salsa.snonce.set i.val (v &&& Reg.mask (.snonce i)) } }
  | .sbctr i => { s with salsa := { s.salsa with sbctr := s.salsa.sbctr.set i.val (v &&& Reg.mask (.sbctr i)) } }
  | .shin i => { s with salsa := { s.salsa with shin := s.salsa.shin.set i.val (v &&& Reg.mask (.shin i)) } }
  | .sdin => { s with salsa := { s.salsa with sdin := v &&& Reg.mask .sdin } }
  | .tiv i => { s with triv := { s.triv with tiv := s.triv.tiv.set i.val (v &&& Reg.mask (.tiv i)) } }
  | .tkey i => { s with triv := { s.triv with tkey := s.triv.tkey.set i.val (v &&& Reg.mask (.tkey i)) } }
  | .tdin => { s with triv := { s.triv with tdin := v &&& Reg.mask .tdin } }

end Sys2Proof.Machine
end

