-- ==== Sys2Proof/Machine/Port.lean ====
section
/-! DEFINITION. The bus slave port: which access is legal, what each access does, and the order in which accesses and the
hardware reset are taken (R50 to R62, R245, R270). -/

namespace Sys2Proof.Machine

/-- The address of an access. -/
def Access.addr : Access → BitVec 12
  | .read addr _ => addr
  | .write addr _ _ _ => addr

/-- Whether an access has the one legal shape: 4 bytes, and on a write all four byte lanes enabled (R53). -/
def Access.wholeWord : Access → Bool
  | .read _ size => size = 4
  | .write _ size strobes _ => size = 4 && strobes = 0xF

/-- The register a legal access reaches; none for every other access (R53). -/
def Access.target (a : Access) : Option Reg := if a.wholeWord then regAt a.addr else none

/-- The command encoded by `v`, run whole (R55, R58); an illegal word sets ERR to ILLEGAL and changes nothing else
(R83, R86). -/
def runCommand (v : Word) (s : State) : Host.Outcome State Fault Refusal :=
  match decode v with
  | .ok i => exec i s
  | .error _ => raiseCmdError .illegal s

/-- The port's answer in this step (the model's own field). -/
def State.respond (s : State) (r : Option Response) : State := { s with response := r }

/-- A finished step answered on the bus: a write to CMD completes only after its command has (R58). -/
def respondDone : Host.Outcome State Fault Refusal → Host.Outcome State Fault Refusal
  | .next s => .next (s.respond (some .done))
  | .fault f => .fault f
  | .refused r => .refused r

/-- A legal access to register `r` (R54, R55). -/
def serveLegal (a : Access) (r : Reg) (s : State) : Host.Outcome State Fault Refusal :=
  match a with
  | .read _ _ => .next (s.respond (some (.data (readReg r s))))
  | .write _ _ _ v => respondDone (if r = .cmd then runCommand v s else .next (writeReg r v s))

/-- One access: an access that is not legal gets an error response and changes no register and no latched state, ERR
included (R53, R245). -/
def serve (a : Access) (s : State) : Host.Outcome State Fault Refusal :=
  match a.target with
  | none => .next (s.respond (some (.busError a.addr)))
  | some r => serveLegal a r s

/-- The oldest access the host has issued, or an idle step (R62, R256). -/
def serveNext (s : State) : Host.Outcome State Fault Refusal :=
  match s.port with
  | [] => .next (s.respond none)
  | a :: rest => serve a { s with port := rest }

/-- One step. While the hardware reset input is asserted every register and latched item is at its reset value and no
access gets a response, so the accesses wait (R270, U13); otherwise the port serves the oldest access. -/
def portStep (s : State) : Host.Outcome State Fault Refusal :=
  match s.resetPin with
  | true :: pins => .next ({ s with resetPin := pins }.resetCore.respond none)
  | false :: pins => serveNext { s with resetPin := pins }
  | [] => serveNext s

end Sys2Proof.Machine
end

