-- ==== Sys2Proof/Machine/Step.lean ====
section
/-! DEFINITION. The machine's step, and the placing of a command word where the next step takes it. -/

namespace Sys2Proof.Machine

/-- One step of the machine: the core is folded into the host's access (R18), so a step is one bus access, one step of an
asserted hardware reset, or an idle step. -/
def step (s : State) : Host.Outcome State Fault Refusal := portStep s

/-- The state in which the very next step runs the command word `w`: the reset input is released and the word is the
oldest access, a write to CMD at 0x008 (R52, R80). Every command is one 32-bit word, so the bits from `nbits` up are 0. -/
def State.withFetchWord (s : State) (nbits w : Nat) : State :=
  { s with resetPin := [],
           port := .write 0x008 4 0xF (BitVec.ofNat 32 (w % 2 ^ nbits)) :: s.port }

end Sys2Proof.Machine
end

