-- ==== Sys2Proof/Machine/HostProgram.lean ====
section
/-! DEFINITION. The text form of host programs (R88, R89) and the bus accesses each form expands to. The core executes
none of these forms. -/

namespace Sys2Proof.Machine

/-- `MemRead(addr, 4)` (R14). -/
def Access.memRead (addr : BitVec 12) : Access := .read addr 4

/-- `MemWrite(addr, 4, v)` (R14), all byte lanes enabled. -/
def Access.memWrite (addr : BitVec 12) (v : Word) : Access := .write addr 4 0xF v

/-- The register arrays, which `wrn` and `rdn` take ranges of (R52, R89). -/
inductive RegArray where
  | mkey | mIn | mOut | skey | snonce | sbctr | shin | shout | tiv | tkey
deriving DecidableEq, Repr

/-- The offset of an array's first element and the number of its elements (R52). -/
def RegArray.place : RegArray → Nat × Nat
  | .mkey => (0x100, 14)
  | .mIn => (0x140, 4)
  | .mOut => (0x150, 4)
  | .skey => (0x200, 8)
  | .snonce => (0x220, 2)
  | .sbctr => (0x228, 2)
  | .shin => (0x240, 16)
  | .shout => (0x280, 16)
  | .tiv => (0x300, 3)
  | .tkey => (0x310, 3)

/-- The bus address of element `i` of an array (R52). -/
def RegArray.addr (r : RegArray) (i : Nat) : BitVec 12 := BitVec.ofNat 12 (r.place.1 + 4 * i)

/-- A host program (R88, R89). `wrn r i vs` is `wrn r[i..j], v_i, …, v_j` and `rdn r i n` is `rdn r[i..i+n-1]`. -/
inductive HostProgram where
  | wr (r : Reg) (v : Word)
  | rd (r : Reg)
  | cmd (i : Instr)
  | wrn (r : RegArray) (i : Nat) (vs : List Word)
  | rdn (r : RegArray) (i n : Nat)
  | rep (n : Nat) (body : HostProgram)
  | seq (first rest : HostProgram)
deriving DecidableEq, Repr

/-- Whether a program names only registers there are and command words there are (R52, R82). -/
def HostProgram.wf : HostProgram → Bool
  | .wr _ _ => true
  | .rd _ => true
  | .cmd i => i.wf
  | .wrn r i vs => i + vs.length ≤ r.place.2
  | .rdn r i n => i + n ≤ r.place.2
  | .rep _ body => body.wf
  | .seq first rest => first.wf && rest.wf

/-- The writes of `wrn`, in increasing index order (R89). -/
def writesFrom (r : RegArray) : Nat → List Word → List Access
  | _, [] => []
  | i, v :: vs => .memWrite (r.addr i) v :: writesFrom r (i + 1) vs

/-- The reads of `rdn`, in increasing index order (R89). -/
def readsFrom (r : RegArray) : Nat → Nat → List Access
  | _, 0 => []
  | i, n + 1 => .memRead (r.addr i) :: readsFrom r (i + 1) n

/-- `n` copies of a list of accesses (R89). -/
def copies (accesses : List Access) : Nat → List Access
  | 0 => []
  | n + 1 => accesses ++ copies accesses n

/-- The bus transfers a host program stands for (R88, R89). -/
def HostProgram.expand : HostProgram → List Access
  | .wr r v => [.memWrite r.addr v]
  | .rd r => [.memRead r.addr]
  | .cmd i => [.memWrite 0x008 (encode i)]
  | .wrn r i vs => writesFrom r i vs
  | .rdn r i n => readsFrom r i n
  | .rep n body => copies body.expand n
  | .seq first rest => first.expand ++ rest.expand

end Sys2Proof.Machine
end

