-- ==== Sys2Proof/Safety.lean ====
section
/-! DEFINITION. The terms that claims about the core use: the invariant of every run, the mapped offsets, what each
command may write and raise, and a host's sequence of accesses with the responses it gets. -/

namespace Sys2Proof.Machine

/-! ## The invariant -/

/-- What every step keeps of the MARS engine (R29, R135): a held schedule is the key schedule of some key of MKLEN words,
4 to 14 of them, and with none held the schedule is zero and MKLEN is 0. -/
structure MarsState.Inv (m : MarsState) : Prop where
  keyed : m.mkeyed = true →
    4 ≤ m.mklen.toNat ∧ m.mklen.toNat ≤ 14 ∧
      ∃ key : List Word, key.length = m.mklen.toNat ∧ m.k = Mars.keySchedule marsSbox key
  unkeyed : m.mkeyed = false → m.mklen = 0 ∧ m.k = .replicate 40 0

/-- What every step keeps of the Salsa20 engine (R33, R34, R175, R179, R180): reserved bits are 0, no stream is open
without a key, a closed stream has no position, an exhausted stream stands at its last counter value, and inside a block
`s.KS` is the keystream block of the stream's key, nonce and counter. -/
structure SalsaState.Inv (m : SalsaState) : Prop where
  sdin_reserved : m.sdin &&& 0xFFFFFF00 = 0
  sdout_reserved : m.sdout &&& 0xFFFFFF00 = 0
  unkeyed : m.skeyed = false → m.sk = .replicate 8 0 ∧ m.sstream = false
  closed : m.sstream = false →
    m.nl = .replicate 2 0 ∧ m.bc = 0 ∧ m.off = 0 ∧ m.ks = .replicate 16 0 ∧ m.sexh = false
  exhausted : m.sexh = true → m.bc = BitVec.allOnes 64 ∧ m.off = 0
  window : m.off ≠ 0 → m.ks = Salsa.keystreamBlock m.sk m.nl m.bc

/-- What every step keeps of the Trivium engine (R35 to R38, U3): reserved bits are 0, the state is never *initialized*
between two accesses, and before construction the registers are 0. -/
structure TriviumState.Inv (m : TriviumState) : Prop where
  tiv_reserved : m.tiv[2] &&& 0xFFFF0000 = 0
  tkey_reserved : m.tkey[2] &&& 0xFFFF0000 = 0
  tdin_reserved : m.tdin &&& 0xFFFFFF00 = 0
  tdout_reserved : m.tdout &&& 0xFFFFFF00 = 0
  settled : m.tstate ≠ .initialized
  unconstructed : m.tstate = .uninitialized → m.regs = ⟨0, 0, 0⟩

/-- The invariant of the core. -/
structure State.Inv (s : State) : Prop where
  mars : s.mars.Inv
  salsa : s.salsa.Inv
  triv : s.triv.Inv

/-! ## The port -/

/-- The reset input is released in this step, and `pins` are its levels afterwards. -/
def State.Released (s : State) (pins : List Bool) : Prop :=
  s.resetPin = false :: pins ∨ (s.resetPin = [] ∧ pins = [])

/-- The host has nothing more to issue: the end of a host program's run (R287). -/
def State.Finished (s : State) : Prop := s.port = []

/-- The mapped offsets of R52, written out. -/
def Mapped (a : Nat) : Prop :=
  a % 4 = 0 ∧
    (a ≤ 0x008 ∨ (0x100 ≤ a ∧ a ≤ 0x134) ∨ (0x140 ≤ a ∧ a ≤ 0x164) ∨ (0x200 ≤ a ∧ a ≤ 0x22C) ∨
      (0x240 ≤ a ∧ a ≤ 0x2C4) ∨ (0x300 ≤ a ∧ a ≤ 0x308) ∨ (0x310 ≤ a ∧ a ≤ 0x318) ∨ (0x320 ≤ a ∧ a ≤ 0x324))

/-- The accesses served one after the other in the order given (R62), with the port's answers. -/
def serveAll : List Access → State → Option (List Response × State)
  | [], s => some ([], s)
  | a :: rest, s =>
    match serve a s with
    | .next t => (serveAll rest t).map fun r => (t.response.toList ++ r.1, r.2)
    | .fault _ => none
    | .refused _ => none

/-- The data a host got from its reads, in order. -/
def readData : List Response → List Word
  | [] => []
  | .data w :: rest => w :: readData rest
  | .done :: rest => readData rest
  | .busError _ :: rest => readData rest

/-- `wr DIN, m[i]; cmd i; rd DOUT` for each byte of a message: the host's loop of R181 and R224. -/
def xorLoop (din dout : Reg) (i : Instr) (m : List Byte) : List Access :=
  m.flatMap fun b => [.memWrite din.addr (zext32 b), .memWrite 0x008 (encode i), .memRead dout.addr]

end Sys2Proof.Machine

/-! ## What a command may write and raise -/

namespace Sys2Proof

open Machine

/-- The result registers a command may write (R276); SRST writes every register (R101). STATUS, which every command
writes through ERR, is left out of this list. -/
def Instr.mayWrite : Instr → Reg → Bool
  | .nop, _ => false
  | .srst, _ => true
  | .marsKey _, _ => false
  | .marsEnc, r | .marsDec, r => match r with | .mOut _ => true | _ => false
  | .marsS, r | .marsS0, r | .marsS1, r | .marsMask, r => r = .mres
  | .salsaKey, _ | .salsaStart, _ => false
  | .salsaQr, r => match r with | .shout i => i.val < 4 | _ => false
  | .salsaHash, r | .salsaBlock, r => match r with | .shout _ => true | _ => false
  | .salsaXor, r => r = .sdout
  | .trivInit, _ => false
  | .trivClk, r | .trivByte, r | .trivXor, r => r = .tdout

/-- The error codes a decoded command may raise (R241). -/
def Instr.mayRaise : Instr → ErrCode → Bool
  | .nop, _ | .srst, _ => false
  | .marsKey _, e => e = .keylen
  | .marsEnc, e | .marsDec, e => e = .nokey
  | .marsS, _ | .marsS0, _ | .marsS1, _ | .marsMask, _ => false
  | .salsaKey, _ | .salsaQr, _ | .salsaHash, _ => false
  | .salsaBlock, e | .salsaStart, e => e = .nokey
  | .salsaXor, e => e = .nostream || e = .exhausted
  | .trivInit, _ => false
  | .trivClk, e | .trivByte, e | .trivXor, e => e = .notinit

end Sys2Proof
end

