-- ==== Sys2Proof/Certificates/Slice0/Obligations.lean ====
section
/-! DEFINITION. The statements about the core, for the provers. -/

open Sys2Proof Sys2Proof.Machine
open Host.Outcome (next)

/-! ## Encoding and decoding -/

/-- A few command words, one or more of each family, and what the decoder reads from them (R85; a sanity statement). -/
def Obligations.SampleWordsDecode : Prop :=
  decode 0x00000000 = .ok .nop ∧ decode 0x00000001 = .ok .srst ∧
  decode 0x00000E10 = .ok (.marsKey 14) ∧ decode 0x00000310 = .ok (.marsKey 3) ∧
  decode 0x00000012 = .ok .marsDec ∧ decode 0x00000016 = .ok .marsMask ∧
  decode 0x00000021 = .ok .salsaQr ∧ decode 0x00000025 = .ok .salsaXor ∧
  decode 0x00000030 = .ok .trivInit ∧ decode 0x00000033 = .ok .trivXor ∧
  decode 0x00000111 = .error .lenNotZero ∧ decode 0x80000011 = .error .reservedBits ∧
  decode 0x000000FF = .error .unassignedOp

/-- Every well-formed command decodes back from its own word (R80, R85). -/
def Obligations.DecodeOfEncodeIsTheCommand : Prop :=
  ∀ i : Instr, i.wf = true → decode (encode i) = .ok i

/-- A word that decodes to a command is that command's own word, and the command is well formed (R84, R85). -/
def Obligations.EncodeOfDecodedIsTheWord : Prop :=
  ∀ (v : Word) (i : Instr), decode v = .ok i → i.wf = true ∧ encode i = v

/-- R85's map, row by row in literals: a word decodes to a row's command exactly when `(v & mask) = match`, and
MARS_KEY's `n` is bits 11:8. -/
def Obligations.DecodeFollowsTheOpcodeMap : Prop :=
  ∀ v : Word,
    (decode v = .ok .nop ↔ v &&& 0xFFFFFFFF = 0x00000000) ∧
    (decode v = .ok .srst ↔ v &&& 0xFFFFFFFF = 0x00000001) ∧
    (∀ n : Nat, decode v = .ok (.marsKey n) ↔ v &&& 0xFFFFF0FF = 0x00000010 ∧ n = (v.extractLsb' 8 4).toNat) ∧
    (decode v = .ok .marsEnc ↔ v &&& 0xFFFFFFFF = 0x00000011) ∧
    (decode v = .ok .marsDec ↔ v &&& 0xFFFFFFFF = 0x00000012) ∧
    (decode v = .ok .marsS ↔ v &&& 0xFFFFFFFF = 0x00000013) ∧
    (decode v = .ok .marsS0 ↔ v &&& 0xFFFFFFFF = 0x00000014) ∧
    (decode v = .ok .marsS1 ↔ v &&& 0xFFFFFFFF = 0x00000015) ∧
    (decode v = .ok .marsMask ↔ v &&& 0xFFFFFFFF = 0x00000016) ∧
    (decode v = .ok .salsaKey ↔ v &&& 0xFFFFFFFF = 0x00000020) ∧
    (decode v = .ok .salsaQr ↔ v &&& 0xFFFFFFFF = 0x00000021) ∧
    (decode v = .ok .salsaHash ↔ v &&& 0xFFFFFFFF = 0x00000022) ∧
    (decode v = .ok .salsaBlock ↔ v &&& 0xFFFFFFFF = 0x00000023) ∧
    (decode v = .ok .salsaStart ↔ v &&& 0xFFFFFFFF = 0x00000024) ∧
    (decode v = .ok .salsaXor ↔ v &&& 0xFFFFFFFF = 0x00000025) ∧
    (decode v = .ok .trivInit ↔ v &&& 0xFFFFFFFF = 0x00000030) ∧
    (decode v = .ok .trivClk ↔ v &&& 0xFFFFFFFF = 0x00000031) ∧
    (decode v = .ok .trivByte ↔ v &&& 0xFFFFFFFF = 0x00000032) ∧
    (decode v = .ok .trivXor ↔ v &&& 0xFFFFFFFF = 0x00000033)

/-- The illegal words in full (R83, R86), and their one effect: ERR = ILLEGAL and nothing else. Every other word decodes
to a command. -/
def Obligations.IllegalWordSetsErrAndNothingElse : Prop :=
  ∀ v : Word,
    let op := (v.extractLsb' 0 8).toNat
    let illegal := v.extractLsb' 12 20 ≠ 0 ∨ (op ≠ 0x10 ∧ v.extractLsb' 8 4 ≠ 0) ∨
      (0x02 ≤ op ∧ op ≤ 0x0F) ∨ (0x17 ≤ op ∧ op ≤ 0x1F) ∨ (0x26 ≤ op ∧ op ≤ 0x2F) ∨ 0x34 ≤ op
    (illegal → ∀ s : State, runCommand v s = next { s with err := .illegal }) ∧
    (¬ illegal → ∃ i, decode v = .ok i ∧ ∀ s : State, runCommand v s = exec i s)

/-! ## The step and the port -/

/-- A step runs the decoded command: with the reset input released and a write of the word to CMD (offset 0x008, four
bytes, all lanes) as the oldest access, the step is `exec` of the command at the state without that access, and the
port answers that the write is done (R40, R58). The fields port, resetPin and response are the model's choice
(assumption log 3). -/
def Obligations.StepRunsTheDecodedCommand : Prop :=
  ∀ (s : State) (pins : List Bool) (v : Word) (rest : List Access) (i : Instr),
    s.Released pins → s.port = .write 0x008 4 0xF v :: rest → decode v = .ok i →
    (∀ t, exec i { s with port := rest, resetPin := pins } = next t →
      step s = next { t with response := some .done }) ∧
    ∃ t, exec i { s with port := rest, resetPin := pins } = next t

/-- With the reset input released a step serves the oldest access and no other; with none issued it is an idle step,
which changes nothing but the port's answer (R62, R256). The fields port, resetPin and response are the model's choice
(assumption log 3). -/
def Obligations.StepServesTheOldestAccess : Prop :=
  ∀ (s : State) (pins : List Bool), s.Released pins →
    (∀ a rest, s.port = a :: rest → step s = serve a { s with port := rest, resetPin := pins }) ∧
    (s.port = [] → step s = next { s with resetPin := pins, response := none })

/-- No step ends in a fault or a refusal, whatever the state, the access and the command word (R247). R247 allows a
refusal where a run needs S-box entries that are not stated; that a MARS command on an open entry runs, with that
value free, is the model's choice (assumption log 1), and that no fault exists is deduced from R247 (assumption log
5). -/
def Obligations.EveryStepAnswersANextState : Prop :=
  ∀ s : State, ∃ t, step s = next t

/-- R53 and R245: an access whose address is misaligned or unmapped, whose size is not 4 bytes, or that writes with a
byte lane off gets an error response and changes no register and no latched state, ERR included; every other access
gets none. The port's answer stands in the model's field response (assumption log 3). -/
def Obligations.IllegalAccessIsABusErrorAndChangesNothing : Prop :=
  ∀ (s : State) (addr : BitVec 12) (size : Nat) (strobes : BitVec 4) (v : Word),
    ((¬ Mapped addr.toNat ∨ size ≠ 4) →
      serve (.read addr size) s = next { s with response := some (.busError addr) }) ∧
    ((¬ Mapped addr.toNat ∨ size ≠ 4 ∨ strobes ≠ 0xF) →
      serve (.write addr size strobes v) s = next { s with response := some (.busError addr) }) ∧
    (Mapped addr.toNat →
      (∃ w, serve (.read addr 4) s = next { s with response := some (.data w) }) ∧
      (∃ t, serve (.write addr 4 0xF v) s = next t ∧ t.response = some .done))

/-- The address map of R52, in literals: every register at its offset, no register at any other, and which registers are
read-only, write-only and, all others, read-write; and the registers of 8 and of 16 bits. -/
def Obligations.AddressMapIsAsGiven : Prop :=
  regAt 0x000 = some .id ∧ regAt 0x004 = some .status ∧ regAt 0x008 = some .cmd ∧
  (∀ i : Fin 14, regAt (BitVec.ofNat 12 (0x100 + 4 * i.val)) = some (.mkey i)) ∧
  (∀ i : Fin 4, regAt (BitVec.ofNat 12 (0x140 + 4 * i.val)) = some (.mIn i)) ∧
  (∀ i : Fin 4, regAt (BitVec.ofNat 12 (0x150 + 4 * i.val)) = some (.mOut i)) ∧
  regAt 0x160 = some .marg ∧ regAt 0x164 = some .mres ∧
  (∀ i : Fin 8, regAt (BitVec.ofNat 12 (0x200 + 4 * i.val)) = some (.skey i)) ∧
  regAt 0x220 = some (.snonce 0) ∧ regAt 0x224 = some (.snonce 1) ∧
  regAt 0x228 = some (.sbctr 0) ∧ regAt 0x22C = some (.sbctr 1) ∧
  (∀ i : Fin 16, regAt (BitVec.ofNat 12 (0x240 + 4 * i.val)) = some (.shin i)) ∧
  (∀ i : Fin 16, regAt (BitVec.ofNat 12 (0x280 + 4 * i.val)) = some (.shout i)) ∧
  regAt 0x2C0 = some .sdin ∧ regAt 0x2C4 = some .sdout ∧
  (∀ i : Fin 3, regAt (BitVec.ofNat 12 (0x300 + 4 * i.val)) = some (.tiv i)) ∧
  (∀ i : Fin 3, regAt (BitVec.ofNat 12 (0x310 + 4 * i.val)) = some (.tkey i)) ∧
  regAt 0x320 = some .tdin ∧ regAt 0x324 = some .tdout ∧
  (∀ a : BitVec 12, regAt a = none ↔ ¬ Mapped a.toNat) ∧
  (∀ r : Reg, r.kind = .readOnly ↔ r = .id ∨ r = .status ∨ (∃ i, r = .mOut i) ∨ r = .mres ∨ (∃ i, r = .shout i) ∨
    r = .sdout ∨ r = .tdout) ∧
  (∀ r : Reg, r.kind = .writeOnly ↔ r = .cmd) ∧
  (∀ s : State,
    (∀ r : Reg, r = .sdin ∨ r = .sdout ∨ r = .tdin ∨ r = .tdout → (readReg r s).extractLsb' 8 24 = 0) ∧
    (∀ r : Reg, r = .tiv 2 ∨ r = .tkey 2 → (readReg r s).extractLsb' 16 16 = 0))

/-- R54: what a legal read of each kind of register returns, reserved bits as 0, with no effect on any state, so that a
second read returns the same. -/
def Obligations.LegalReadReturnsTheRegister : Prop :=
  ∀ s : State,
    (∀ r : Reg, serve (.read r.addr 4) s = next { s with response := some (.data (readReg r s)) }) ∧
    readReg .id s = 0x424C5631 ∧ readReg .cmd s = 0 ∧ readReg .status s = statusWord s ∧
    (∀ i : Fin 14, readReg (.mkey i) s = s.mars.mkey[i.val]) ∧
    (∀ i : Fin 4, readReg (.mIn i) s = s.mars.mIn[i.val] ∧ readReg (.mOut i) s = s.mars.mOut[i.val]) ∧
    readReg .marg s = s.mars.marg ∧ readReg .mres s = s.mars.mres ∧
    (∀ i : Fin 8, readReg (.skey i) s = s.salsa.skey[i.val]) ∧
    (∀ i : Fin 2, readReg (.snonce i) s = s.salsa.snonce[i.val] ∧ readReg (.sbctr i) s = s.salsa.sbctr[i.val]) ∧
    (∀ i : Fin 16, readReg (.shin i) s = s.salsa.shin[i.val] ∧ readReg (.shout i) s = s.salsa.shout[i.val]) ∧
    readReg .sdin s = s.salsa.sdin &&& 0xFF ∧ readReg .sdout s = s.salsa.sdout &&& 0xFF ∧
    readReg (.tiv 0) s = s.triv.tiv[0] ∧ readReg (.tiv 1) s = s.triv.tiv[1] ∧
    readReg (.tiv 2) s = s.triv.tiv[2] &&& 0xFFFF ∧
    readReg (.tkey 0) s = s.triv.tkey[0] ∧ readReg (.tkey 1) s = s.triv.tkey[1] ∧
    readReg (.tkey 2) s = s.triv.tkey[2] &&& 0xFFFF ∧
    readReg .tdin s = s.triv.tdin &&& 0xFF ∧ readReg .tdout s = s.triv.tdout &&& 0xFF ∧
    (∀ (r r' : Reg) (t : State), serve (.read r.addr 4) s = next t → readReg r' t = readReg r' s)

/-- R23: the fields of STATUS, bit by bit, with its reserved bits 0 and its value 0 after reset; a write of it is
ignored, and from states that meet the invariant TSTATE never reads 1 or 3. -/
def Obligations.StatusFieldsAreAsGiven : Prop :=
  ∀ s : State,
    let v := readReg .status s
    v.getLsbD 0 = s.mars.mkeyed ∧ v.getLsbD 1 = s.salsa.skeyed ∧ v.getLsbD 2 = s.salsa.sstream ∧
    v.getLsbD 3 = s.salsa.sexh ∧
    v.extractLsb' 4 2 =
      (match s.triv.tstate with | .uninitialized => 0 | .initialized => 1 | .producing => 2) ∧
    v.extractLsb' 6 2 = 0 ∧
    v.extractLsb' 8 4 = (match s.err with
      | .ok => 0 | .illegal => 1 | .keylen => 2 | .nokey => 3 | .nostream => 4 | .notinit => 5 | .exhausted => 6) ∧
    v.extractLsb' 12 4 = s.mars.mklen ∧ v.extractLsb' 16 16 = 0 ∧
    readReg .status State.reset = 0 ∧ (∀ w : Word, writeReg .status w s = s) ∧
    (s.Inv → v.extractLsb' 4 2 ≠ 1) ∧ v.extractLsb' 4 2 ≠ 3

/-- R55: a legal write to a register other than CMD. A read-write register then reads as the value with its reserved
bits cleared, every other register (STATUS among them) reads as before and no latched state changes; a write to a
read-only register changes nothing; a write repeated changes nothing more; a write to CMD runs its word. That a
repeated write changes nothing more is R56, which the spec marks as its own derivation. -/
def Obligations.LegalWriteSetsTheRegister : Prop :=
  ∀ (r : Reg) (v : Word) (s : State),
    (r ≠ .cmd → serve (.write r.addr 4 0xF v) s = next { writeReg r v s with response := some .done }) ∧
    (r.kind = .readWrite → readReg r (writeReg r v s) =
      (if r = .sdin ∨ r = .tdin then v &&& 0xFF
       else if r = .tiv 2 ∨ r = .tkey 2 then v &&& 0xFFFF else v)) ∧
    (r.kind = .readOnly → writeReg r v s = s) ∧
    writeReg r v (writeReg r v s) = writeReg r v s ∧
    (∀ r' : Reg, r' ≠ r → readReg r' (writeReg r v s) = readReg r' s) ∧
    (let t := writeReg r v s
     t.err = s.err ∧ t.mars.k = s.mars.k ∧ t.mars.mkeyed = s.mars.mkeyed ∧ t.mars.mklen = s.mars.mklen ∧
     t.salsa.sk = s.salsa.sk ∧ t.salsa.skeyed = s.salsa.skeyed ∧ t.salsa.nl = s.salsa.nl ∧
     t.salsa.bc = s.salsa.bc ∧ t.salsa.off = s.salsa.off ∧ t.salsa.ks = s.salsa.ks ∧
     t.salsa.sstream = s.salsa.sstream ∧ t.salsa.sexh = s.salsa.sexh ∧
     t.triv.regs = s.triv.regs ∧ t.triv.tstate = s.triv.tstate ∧
     t.port = s.port ∧ t.resetPin = s.resetPin ∧ t.response = s.response) ∧
    (∀ t, runCommand v s = next t → serve (.write 0x008 4 0xF v) s = next { t with response := some .done })

/-- R39: the ERR a command leaves does not depend on the ERR before it, and an access that is not a write to CMD leaves
ERR as it was; after reset it is OK. -/
def Obligations.OnlyCommandsWriteErr : Prop :=
  State.reset.err = .ok ∧
  (∀ (i : Instr) (s : State) (e : ErrCode), exec i { s with err := e } = exec i s) ∧
  (∀ (a : Access) (s t : State), a.target ≠ some .cmd → serve a s = next t → t.err = s.err) ∧
  (∀ (addr : BitVec 12) (size : Nat) (s t : State), serve (.read addr size) s = next t → t.err = s.err)

/-- R44 and R251: what a read returns does not depend on the latched schedule, keys, nonce, position, keystream block or
shift registers. -/
def Obligations.NoReadShowsLatchedState : Prop :=
  ∀ (r : Reg) (s : State) (k : Vector Word 40) (sk : Vector Word 8) (nl : Vector Word 2) (bc : BitVec 64)
    (off : BitVec 6) (ks : Vector Word 16) (regs : TrivRegs),
    readReg r { s with mars := { s.mars with k := k },
                       salsa := { s.salsa with sk := sk, nl := nl, bc := bc, off := off, ks := ks },
                       triv := { s.triv with regs := regs } } = readReg r s

/-- R88 and R89: `cmd MNEMONIC` is one write of the command's word to CMD, `wr` and `rd` are one access at the
register's offset, `wrn` and `rdn` one access for each element in increasing index order, `rep N` is N copies of its
body; an array's elements stand at their registers' addresses; and no access of a program whose names and ranges exist
gets a bus error. The last clause rests on R53 and on the model's program forms, which name registers only (assumption
log 14, deduced). -/
def Obligations.HostProgramsExpandToLegalAccesses : Prop :=
  (∀ (i : Instr), (HostProgram.cmd i).expand = [.write 0x008 4 0xF (encode i)] ∧
    (HostProgram.cmd i).expand = (HostProgram.wr .cmd (encode i)).expand) ∧
  (∀ (r : Reg) (v : Word), (HostProgram.wr r v).expand = [.write (BitVec.ofNat 12 r.offset) 4 0xF v]) ∧
  (∀ (r : Reg), (HostProgram.rd r).expand = [.read (BitVec.ofNat 12 r.offset) 4]) ∧
  (∀ (r : RegArray) (i : Nat) (vs : List Word), (HostProgram.wrn r i vs).expand =
    (vs.zipIdx i).map fun p => .write (BitVec.ofNat 12 (r.place.1 + 4 * p.2)) 4 0xF p.1) ∧
  (∀ (r : RegArray) (i n : Nat), (HostProgram.rdn r i n).expand =
    (List.range' i n).map fun j => .read (BitVec.ofNat 12 (r.place.1 + 4 * j)) 4) ∧
  (∀ i : Fin 14, RegArray.mkey.addr i.val = (Reg.mkey i).addr) ∧
  (∀ i : Fin 4, RegArray.mIn.addr i.val = (Reg.mIn i).addr ∧ RegArray.mOut.addr i.val = (Reg.mOut i).addr) ∧
  (∀ i : Fin 8, RegArray.skey.addr i.val = (Reg.skey i).addr) ∧
  (∀ i : Fin 2, RegArray.snonce.addr i.val = (Reg.snonce i).addr ∧ RegArray.sbctr.addr i.val = (Reg.sbctr i).addr) ∧
  (∀ i : Fin 16, RegArray.shin.addr i.val = (Reg.shin i).addr ∧ RegArray.shout.addr i.val = (Reg.shout i).addr) ∧
  (∀ i : Fin 3, RegArray.tiv.addr i.val = (Reg.tiv i).addr ∧ RegArray.tkey.addr i.val = (Reg.tkey i).addr) ∧
  (∀ (n : Nat) (p : HostProgram), (HostProgram.rep n p).expand = (List.replicate n p.expand).flatten) ∧
  (∀ (p : HostProgram), p.wf = true → ∀ a ∈ p.expand, a.target ≠ none)

/-! ## Reset -/

/-- SRST, whole (R101, R43): its word; every register and latched item at its reset value, here in literals; STATUS
and every register but ID then read 0; the hardware reset input has the same effect; and no other command takes
Trivium back to *uninitialized*, TRIV_INIT ending in *producing*. The reset input, the waiting accesses and the port's
answer are the model's fields (assumption logs 3 and 13). -/
def Obligations.SoftResetClearsEverything : Prop :=
  decode 0x00000001 = .ok .srst ∧
  (∀ (i : Instr) (s t : State), i ≠ .srst → exec i s = next t → t.triv.tstate = .uninitialized →
    s.triv.tstate = .uninitialized) ∧
  (∀ s t : State, exec .trivInit s = next t → t.triv.tstate = .producing) ∧
  ∀ s : State,
    exec .srst s = next
      { err := .ok,
        mars := { mkey := .replicate 14 0, mIn := .replicate 4 0, mOut := .replicate 4 0, marg := 0, mres := 0,
                  k := .replicate 40 0, mkeyed := false, mklen := 0 },
        salsa := { skey := .replicate 8 0, snonce := .replicate 2 0, sbctr := .replicate 2 0,
                   shin := .replicate 16 0, shout := .replicate 16 0, sdin := 0, sdout := 0,
                   sk := .replicate 8 0, skeyed := false, nl := .replicate 2 0, bc := 0, off := 0,
                   ks := .replicate 16 0, sstream := false, sexh := false },
        triv := { tiv := .replicate 3 0, tkey := .replicate 3 0, tdin := 0, tdout := 0, regs := ⟨0, 0, 0⟩,
                  tstate := .uninitialized },
        port := s.port, resetPin := s.resetPin, response := s.response } ∧
    (∀ t, exec .srst s = next t → (readReg .id t = 0x424C5631 ∧ ∀ r : Reg, r ≠ .id → readReg r t = 0) ∧
      ∀ pins, step { s with resetPin := true :: pins } = next { t with resetPin := pins, response := none })

/-- R270: while the hardware reset input is asserted a step leaves every register and latched item as SRST does, at
its reset value, and an access that waits gets no response and goes on waiting. The reset input and the port are the
model's fields (assumption logs 3 and 13). -/
def Obligations.HardwareResetIsSoftReset : Prop :=
  ∀ s : State,
    (∀ pins, s.resetPin = true :: pins → step s = next { State.reset with resetPin := pins, port := s.port }) ∧
    exec .srst s = next { State.reset with resetPin := s.resetPin, port := s.port, response := s.response }

/-- The invariant holds right after reset (R43). -/
def Obligations.ResetMeetsTheInvariant : Prop := State.reset.Inv

/-- Every step from a state that meets the invariant ends in one that meets it: reserved bits read 0, TSTATE is never
*initialized* between accesses, a held schedule is the key schedule of a key of MKLEN words, a stream has a key, and the
window `s.KS` is the block of the stream's position (R29, R33 to R38, U3). -/
def Obligations.EveryStepKeepsTheInvariant : Prop :=
  ∀ s t : State, s.Inv → step s = next t → t.Inv

/-! ## Word primitives -/

/-- R12: the rotations are the rotations of a 32-bit vector with the amount reduced modulo 32, so by 0 or 32 they change
nothing, and each undoes the other. -/
def Obligations.RotationsAreModulo32 : Prop :=
  ∀ (x : Word) (n : Nat),
    rotl32 x n = x.rotateLeft (n % 32) ∧ rotr32 x n = x.rotateRight (n % 32) ∧
    rotl32 x 0 = x ∧ rotl32 x 32 = x ∧ rotr32 (rotl32 x n) n = x ∧ rotl32 (rotr32 x n) n = x

/-! ## Control -/

/-- NOP, whole (R100): its word, its one effect, and the words with OP = 0 that are not NOP. -/
def Obligations.NopOnlyClearsErr : Prop :=
  decode 0x00000000 = .ok .nop ∧
  (∀ s : State, exec .nop s = next { s with err := .ok }) ∧
  (∀ (v : Word) (s : State), v.extractLsb' 0 8 = 0 → v.extractLsb' 8 24 ≠ 0 →
    runCommand v s = next { s with err := .illegal }) ∧
  (∀ s t : State, statusWord s = 0x00000202 → exec .nop s = next t → statusWord t = 0x00000002)

/-! ## MARS -/

/-- MARS_KEY (R135, R243): its word; a length from 4 to 14 latches the key schedule of MKEY[0..n-1]; every other length
discards the schedule and raises KEYLEN, after which MARS_ENC and MARS_DEC raise NOKEY; MKEY[n..13] are not read. -/
def Obligations.MarsKeyLatchesOrDiscards : Prop :=
  (∀ n : Nat, n ≤ 15 → decode (0x00000010 ||| (BitVec.ofNat 32 n <<< 8)) = .ok (.marsKey n)) ∧
  ∀ (n : Nat) (s : State),
    (4 ≤ n ∧ n ≤ 14 →
      exec (.marsKey n) s = next { s with
        err := .ok,
        mars := { s.mars with k := Mars.keySchedule marsSbox (s.mars.mkey.toList.take n),
                              mkeyed := true, mklen := BitVec.ofNat 4 n } } ∧
      (∀ key : Vector Word 14, (∀ i : Fin 14, i.val < n → key[i.val] = s.mars.mkey[i.val]) →
        ∃ t, exec (.marsKey n) { s with mars := { s.mars with mkey := key } } = next t ∧
          t.mars.k = Mars.keySchedule marsSbox (s.mars.mkey.toList.take n))) ∧
    (n < 4 ∨ 14 < n →
      ∃ t, t = { s with err := .keylen,
                        mars := { s.mars with k := .replicate 40 0, mkeyed := false, mklen := 0 } } ∧
        exec (.marsKey n) s = next t ∧
        exec .marsEnc t = next { t with err := .nokey } ∧ exec .marsDec t = next { t with err := .nokey })

/-- MARS_ENC and MARS_DEC (R136, R137): their words; with a schedule held they write the four words of the block to
MOUT and nothing else but ERR; with none they raise NOKEY and change nothing else. -/
def Obligations.MarsEncAndDecWriteMout : Prop :=
  decode 0x00000011 = .ok .marsEnc ∧ decode 0x00000012 = .ok .marsDec ∧
  ∀ s : State,
    let d : Block := ⟨s.mars.mIn[0], s.mars.mIn[1], s.mars.mIn[2], s.mars.mIn[3]⟩
    let e := Mars.encrypt marsSbox s.mars.k d
    let p := Mars.decrypt marsSbox s.mars.k d
    (s.mars.mkeyed = true →
      exec .marsEnc s = next { s with err := .ok, mars := { s.mars with mOut := #v[e.a, e.b, e.c, e.d] } } ∧
      exec .marsDec s = next { s with err := .ok, mars := { s.mars with mOut := #v[p.a, p.b, p.c, p.d] } }) ∧
    (s.mars.mkeyed = false →
      exec .marsEnc s = next { s with err := .nokey } ∧ exec .marsDec s = next { s with err := .nokey })

/-- MARS_S, MARS_S0, MARS_S1 and MARS_MASK, whole (R138 to R141): their words; each writes MRES and nothing else but ERR,
without any key, from the bits of MARG that its rule names; bits 0, 1 and 31 of a mask; and the source's examples. -/
def Obligations.MarsLookupsWriteMres : Prop :=
  decode 0x00000013 = .ok .marsS ∧ decode 0x00000014 = .ok .marsS0 ∧ decode 0x00000015 = .ok .marsS1 ∧
  decode 0x00000016 = .ok .marsMask ∧
  ∀ s : State,
    exec .marsS s = next { s with err := .ok, mars := { s.mars with
      mres := marsSbox (s.mars.marg.extractLsb' 0 9) } } ∧
    exec .marsS0 s = next { s with err := .ok, mars := { s.mars with
      mres := marsSbox (BitVec.ofNat 9 (s.mars.marg.toNat % 256)) } } ∧
    exec .marsS1 s = next { s with err := .ok, mars := { s.mars with
      mres := marsSbox (BitVec.ofNat 9 (256 + s.mars.marg.toNat % 256)) } } ∧
    exec .marsMask s = next { s with err := .ok, mars := { s.mars with mres := Mars.mask s.mars.marg } } ∧
    (s.mars.marg = 0x42424202 → ∃ t, exec .marsS0 s = next t ∧ t.mars.mres = 0x84aa6c39) ∧
    (s.mars.marg = 0x4242420E → ∃ t, exec .marsS1 s = next t ∧ t.mars.mres = 0x0f59573e) ∧
    (s.mars.marg = 0x0000010E → ∃ t, exec .marsS s = next t ∧ t.mars.mres = 0x0f59573e) ∧
    (s.mars.marg = 0x00000003 → ∃ t, exec .marsMask s = next t ∧ t.mars.mres = 0x7FFFFFF8) ∧
    (∀ w : Word, (Mars.mask w).getLsbD 0 = false ∧ (Mars.mask w).getLsbD 1 = false ∧ (Mars.mask w).getLsbD 31 = false)

/-- R115: bit `l` of the mask is set exactly when `l` is 2 to 30 and it lies, with both its neighbours, in a run of
ten or more equal bits; and the source's example and the corner cases of the rule. -/
def Obligations.MaskMarksRunsOfTen : Prop :=
  (∀ (w : Word) (l : Nat), (Mars.mask w).getLsbD l = true ↔
    2 ≤ l ∧ l ≤ 30 ∧ ∃ lo hi : Nat, lo + 1 ≤ l ∧ l + 1 ≤ hi ∧ hi ≤ 31 ∧ 10 ≤ hi - lo + 1 ∧
      ∀ j, lo ≤ j → j ≤ hi → w.getLsbD j = w.getLsbD l) ∧
  Mars.mask 0x00000003 = 0x7FFFFFF8 ∧ Mars.mask 0x00000000 = 0x7FFFFFFC ∧ Mars.mask 0xFFFFFFFF = 0x7FFFFFFC ∧
  Mars.mask 0x55555555 = 0

/-- R116: the working buffer holds the key words, then the length, then zeros. The zero fill is what the spec supplies
from general knowledge (assumption log 12). -/
def Obligations.WorkingBufferHoldsKeyLengthZeros : Prop :=
  ∀ (key : List Word), 4 ≤ key.length → key.length ≤ 14 → ∀ i : Fin 15,
    (∀ h : i.val < key.length, (Mars.initT key)[i.val] = key[i.val]) ∧
    (i.val = key.length → (Mars.initT key)[i.val] = BitVec.ofNat 32 key.length) ∧
    (key.length < i.val → (Mars.initT key)[i.val] = 0)

/-- R117: the linear pass word by word. Words 0 to 6 see the old words 8 places on, every later word the new word 7
places back; words 0 and 1 see the old words 13 places on, every later word the new word 2 places back. The exact
steps are those the spec supplies from general knowledge (assumption log 12). -/
def Obligations.LinearPassIsInPlace : Prop :=
  ∀ (j : Nat) (t : Vector Word 15),
    let u := Mars.linearPass j t
    (∀ i : Fin 2, u[i.val] = t[i.val] ^^^ rotl32 (t[i.val + 8] ^^^ t[i.val + 13]) 3 ^^^ BitVec.ofNat 32 (4 * i.val + j)) ∧
    (∀ i : Fin 5, u[i.val + 2] =
      t[i.val + 2] ^^^ rotl32 (t[i.val + 10] ^^^ u[i.val]) 3 ^^^ BitVec.ofNat 32 (4 * (i.val + 2) + j)) ∧
    (∀ i : Fin 8, u[i.val + 7] =
      t[i.val + 7] ^^^ rotl32 (u[i.val] ^^^ u[i.val + 5]) 3 ^^^ BitVec.ofNat 32 (4 * (i.val + 7) + j))

/-- R118: one stirring pass word by word. Word 0 sees the old T[14], every later word the new word before it; the four
passes of a round index follow its linear pass. The in-place order is what the spec supplies from general knowledge
(assumption log 12). -/
def Obligations.StirringPassIsInPlace : Prop :=
  ∀ (sbox : Sbox) (t : Vector Word 15),
    let u := Mars.stirPass sbox t
    (u[0] = rotl32 (t[0] + Mars.S sbox t[14]) 9) ∧
    (∀ i : Fin 14, u[i.val + 1] = rotl32 (t[i.val + 1] + Mars.S sbox u[i.val]) 9) ∧
    (∀ j : Nat, Mars.diffuse sbox j t =
      Mars.stirPass sbox (Mars.stirPass sbox (Mars.stirPass sbox (Mars.stirPass sbox (Mars.linearPass j t)))))

/-- R119 and R121: the ten words of each round index come from T[0], T[4], T[8], T[12], T[1], T[5], T[9], T[13], T[2]
and T[6] of the buffer after that index's passes, the buffer carried on from one index to the next; the key schedule
is the working buffer, these forty words, and the fixing of the multiplication words. That the buffer is carried on is
the spec's own derivation; the passes are those of assumption log 12. -/
def Obligations.ScheduleTakesEveryFourthWord : Prop :=
  ∀ (sbox : Sbox) (t : Vector Word 15),
    let t0 := Mars.diffuse sbox 0 t
    let t1 := Mars.diffuse sbox 1 t0
    let t2 := Mars.diffuse sbox 2 t1
    let t3 := Mars.diffuse sbox 3 t2
    (Mars.expand sbox t).toList =
      ([t0, t1, t2, t3].flatMap fun u => [u[0], u[4], u[8], u[12], u[1], u[5], u[9], u[13], u[2], u[6]]) ∧
    ∀ key : List Word, Mars.keySchedule sbox key = Mars.fixup (Mars.expand sbox (Mars.initT key))

/-- R120: the words at 5, 7, …, 35 are fixed from themselves and the word before them, the table entry chosen by their
two low bits before these are forced; every other word stays. Each fixed word has its two low bits 1. The table's
values are those the spec supplies from general knowledge (assumption log 12). -/
def Obligations.FixupChangesTheMultiplicationWords : Prop :=
  ∀ (k : Vector Word 40),
    let f := Mars.fixup k
    (∀ t : Fin 16,
      let w := k[2 * t.val + 5]
      let b : Word := match (w.extractLsb' 0 2).toNat with
        | 0 => 0xa4a8d57b | 1 => 0x5b5d193b | 2 => 0xc8a8309b | _ => 0x73f9a978
      f[2 * t.val + 5] = (w ||| 3) ^^^ (b.rotateLeft (k[2 * t.val + 4].toNat % 32) &&& Mars.mask (w ||| 3)) ∧
      (f[2 * t.val + 5]).extractLsb' 0 2 = 3) ∧
    (∀ i : Fin 40, i.val < 5 ∨ 35 < i.val ∨ i.val % 2 = 0 → f[i.val] = k[i.val])

/-- R122 to R126: one round of each phase from the bytes of its words and the rotations of a 32-bit vector, and
encryption as 8 forward, 16 core and 8 backward rounds between the schedule words added and subtracted. The exact
steps are those the spec supplies from general knowledge (assumption log 12). -/
def Obligations.MarsRoundsAreAsGiven : Prop :=
  ∀ (sbox : Sbox) (k : Vector Word 40) (a b c d : Word),
    let s0 := fun (x : Word) (n : Nat) => sbox (BitVec.ofNat 9 (x.toNat / 2 ^ (8 * n) % 256))
    let s1 := fun (x : Word) (n : Nat) => sbox (BitVec.ofNat 9 (256 + x.toNat / 2 ^ (8 * n) % 256))
    (∀ i : Nat, Mars.forwardRound sbox i ⟨a, b, c, d⟩ =
      ⟨(b ^^^ s0 a 0) + s1 a 1, c + s0 a 2, d ^^^ s1 a 3,
        if i = 0 ∨ i = 4 then a.rotateRight 24 + (d ^^^ s1 a 3)
        else if i = 1 ∨ i = 5 then a.rotateRight 24 + ((b ^^^ s0 a 0) + s1 a 1) else a.rotateRight 24⟩) ∧
    (∀ x k1 k2 : Word,
      let r5 := (x.rotateLeft 13 * k2).rotateLeft 5
      let r10 := r5.rotateLeft 5
      Mars.E sbox x k1 k2 = ((sbox (BitVec.ofNat 9 ((x + k1).toNat % 512)) ^^^ r5 ^^^ r10).rotateLeft (r10.toNat % 32),
        (x + k1).rotateLeft (r5.toNat % 32), r10)) ∧
    (∀ i : Fin 16,
      let e := Mars.E sbox a k[2 * i.val + 4] k[2 * i.val + 5]
      Mars.coreRound sbox k i ⟨a, b, c, d⟩ =
        ⟨if i.val < 8 then b + e.1 else b ^^^ e.2.2, c + e.2.1, if i.val < 8 then d ^^^ e.2.2 else d + e.1,
          a.rotateLeft 13⟩) ∧
    (∀ i : Nat,
      let a' := if i = 2 ∨ i = 6 then a - d else if i = 3 ∨ i = 7 then a - b else a
      Mars.backwardRound sbox i ⟨a, b, c, d⟩ =
        ⟨b ^^^ s1 a' 0, c - s0 a' 3, (d - s1 a' 2) ^^^ s0 a' 1, a'.rotateLeft 24⟩) ∧
    (let x := (List.range 8).foldl (fun x i => Mars.forwardRound sbox i x) ⟨a + k[0], b + k[1], c + k[2], d + k[3]⟩
     let y := (List.finRange 16).foldl (fun y i => Mars.coreRound sbox k i y) x
     let z := (List.range 8).foldl (fun z i => Mars.backwardRound sbox i z) y
     Mars.encrypt sbox k ⟨a, b, c, d⟩ = ⟨z.a - k[36], z.b - k[37], z.c - k[38], z.d - k[39]⟩)

/-- R131: decryption undoes encryption and encryption undoes decryption, for every S-box, schedule and block. The
second direction is the spec's own derivation. -/
def Obligations.MarsDecryptUndoesEncrypt : Prop :=
  ∀ (sbox : Sbox) (k : Vector Word 40) (x : Block),
    Mars.decrypt sbox k (Mars.encrypt sbox k x) = x ∧ Mars.encrypt sbox k (Mars.decrypt sbox k x) = x

/-- The host's round trip (R131, R136, R137): MARS_KEY with a legal length, MARS_ENC, the four words of MOUT copied to
MIN over the bus, MARS_DEC; MOUT then holds the block that MIN held at first. -/
def Obligations.MarsCommandsRoundTrip : Prop :=
  ∀ (n : Nat) (s s1 s2 : State), 4 ≤ n → n ≤ 14 → exec (.marsKey n) s = next s1 → exec .marsEnc s1 = next s2 →
    ∃ rs s3 s4, serveAll
        [.memWrite 0x140 s2.mars.mOut[0], .memWrite 0x144 s2.mars.mOut[1],
         .memWrite 0x148 s2.mars.mOut[2], .memWrite 0x14C s2.mars.mOut[3]] s2 = some (rs, s3) ∧
      exec .marsDec s3 = next s4 ∧ s4.mars.mOut = s.mars.mIn ∧ s4.err = .ok

/-- R142: no command but MARS_KEY and SRST changes the held schedule, its flag or its length; the other MARS commands
change their result registers and ERR alone; no register's value depends on the schedule; and no command reads it out:
for every command but MARS_ENC and MARS_DEC, whose results are the ciphers' blocks, what the command leaves outside
`s.K` is the same under any other schedule. -/
def Obligations.OnlyKeyAndResetChangeTheSchedule : Prop :=
  (∀ (s : State) (k : Vector Word 40) (r : Reg), readReg r { s with mars := { s.mars with k := k } } = readReg r s) ∧
  (∀ (i : Instr) (s : State) (k : Vector Word 40), i ≠ .marsEnc → i ≠ .marsDec →
    ∃ t t', exec i s = next t ∧ exec i { s with mars := { s.mars with k := k } } = next t' ∧
      t' = { t with mars := { t.mars with k := t'.mars.k } }) ∧
  ∀ (i : Instr) (s t : State), (∀ n, i ≠ .marsKey n) → i ≠ .srst → exec i s = next t →
    t.mars.k = s.mars.k ∧ t.mars.mkeyed = s.mars.mkeyed ∧ t.mars.mklen = s.mars.mklen ∧
    (i.family = .mars → t = { s with err := t.err, mars := { s.mars with mOut := t.mars.mOut, mres := t.mars.mres } })

/-! ## Salsa20 -/

/-- R160: the quarter round in terms of the rotations of a 32-bit vector, and the source's two vectors. -/
def Obligations.QuarterRoundIsAsGiven : Prop :=
  (∀ y0 y1 y2 y3 z0 z1 z2 z3 : Word, Salsa.quarterRound y0 y1 y2 y3 = (z0, z1, z2, z3) ↔
    z1 = y1 ^^^ (y0 + y3).rotateLeft 7 ∧ z2 = y2 ^^^ (z1 + y0).rotateLeft 9 ∧
    z3 = y3 ^^^ (z2 + z1).rotateLeft 13 ∧ z0 = y0 ^^^ (z3 + z2).rotateLeft 18) ∧
  Salsa.quarterRound 0 0 0 0 = (0, 0, 0, 0) ∧
  Salsa.quarterRound 1 0 0 0 = (0x08008145, 0x00000080, 0x00010200, 0x20500000)

/-- R161 to R163: each round is four quarter rounds on disjoint groups of the sixteen words, so every result is that of
the round's input; a double round is a column round, then a row round. -/
def Obligations.RoundsAreFourQuarterRounds : Prop :=
  ∀ x : Vector Word 16,
    Salsa.doubleRound x = Salsa.rowRound (Salsa.columnRound x) ∧
    (let col := Salsa.columnRound x
     (col[0], col[4], col[8], col[12]) = Salsa.quarterRound x[0] x[4] x[8] x[12] ∧
     (col[5], col[9], col[13], col[1]) = Salsa.quarterRound x[5] x[9] x[13] x[1] ∧
     (col[10], col[14], col[2], col[6]) = Salsa.quarterRound x[10] x[14] x[2] x[6] ∧
     (col[15], col[3], col[7], col[11]) = Salsa.quarterRound x[15] x[3] x[7] x[11]) ∧
    (let row := Salsa.rowRound x
     (row[0], row[1], row[2], row[3]) = Salsa.quarterRound x[0] x[1] x[2] x[3] ∧
     (row[5], row[6], row[7], row[4]) = Salsa.quarterRound x[5] x[6] x[7] x[4] ∧
     (row[10], row[11], row[8], row[9]) = Salsa.quarterRound x[10] x[11] x[8] x[9] ∧
     (row[15], row[12], row[13], row[14]) = Salsa.quarterRound x[15] x[12] x[13] x[14])

/-- R164 and R165: the sixteen words of the expansion, and as 64 bytes, each word little-endian, the expansion is
"expa", key bytes 0..15, "nd 3", the nonce and the counter's 8 bytes from the least significant, "2-by", key bytes
16..31, "te k". The interleave is what the spec supplies from general knowledge (assumption log 12). -/
def Obligations.ExpansionBytesAreInterleaved : Prop :=
  ∀ (skey : Vector Word 8) (nonce : Vector Word 2) (c : BitVec 64),
    Salsa.expand skey nonce c =
      (#v[0x61707865, skey[0], skey[1], skey[2], skey[3], 0x3320646e, nonce[0], nonce[1],
         c.extractLsb' 0 32, c.extractLsb' 32 32, 0x79622d32, skey[4], skey[5], skey[6], skey[7], 0x6b206574] : Vector Word 16) ∧
    ((Salsa.expand skey nonce c).toList.flatMap fun w => [byte w 0, byte w 1, byte w 2, byte w 3]) =
      [0x65, 0x78, 0x70, 0x61] ++ (skeyBytes skey).toList.take 16 ++ [0x6e, 0x64, 0x20, 0x33] ++
      (snonceBytes nonce).toList ++ ((List.range 8).map fun j => c.extractLsb' (8 * j) 8) ++
      [0x32, 0x2d, 0x62, 0x79] ++ (skeyBytes skey).toList.drop 16 ++ [0x74, 0x65, 0x20, 0x6b]

/-- SALSA_KEY, whole (R175): its word; the key is latched, any stream is closed and its position cleared; SKEYED reads
1. -/
def Obligations.SalsaKeyLatchesAndCloses : Prop :=
  decode 0x00000020 = .ok .salsaKey ∧
  (∀ s t : State, exec .salsaKey s = next t → (readReg .status t).getLsbD 1 = true) ∧
  ∀ s : State, exec .salsaKey s = next { s with
    err := .ok,
    salsa := { s.salsa with sk := s.salsa.skey, skeyed := true, sstream := false, sexh := false,
                            nl := .replicate 2 0, bc := 0, off := 0, ks := .replicate 16 0 } }

/-- SALSA_QR and SALSA_HASH, whole (R176, R177): their words; without any key; SALSA_QR leaves words 4 to 15 of SHOUT;
the hash of zeros is zeros. -/
def Obligations.SalsaTestPortsWriteShout : Prop :=
  decode 0x00000021 = .ok .salsaQr ∧ decode 0x00000022 = .ok .salsaHash ∧
  Salsa.quarterRound 1 0 0 0 = (0x08008145, 0x00000080, 0x00010200, 0x20500000) ∧
  ∀ s : State,
    (∃ out : Vector Word 16,
      exec .salsaQr s = next { s with err := .ok, salsa := { s.salsa with shout := out } } ∧
      (out[0], out[1], out[2], out[3]) =
        Salsa.quarterRound s.salsa.shin[0] s.salsa.shin[1] s.salsa.shin[2] s.salsa.shin[3] ∧
      (∀ i : Fin 16, 4 ≤ i.val → out[i.val] = s.salsa.shout[i.val])) ∧
    exec .salsaHash s = next { s with err := .ok, salsa := { s.salsa with shout := Salsa.hash s.salsa.shin } } ∧
    (∀ i : Fin 16, (Salsa.hash s.salsa.shin)[i.val] =
      (Nat.iterate Salsa.doubleRound 10 s.salsa.shin)[i.val] + s.salsa.shin[i.val]) ∧
    Salsa.hash (.replicate 16 0) = .replicate 16 0

/-- SALSA_BLOCK and SALSA_START, whole (R178, R179): their words; R178's example; with a key latched, the block of the
live nonce and counter to SHOUT, or a stream opened at position 0 whose nonce later writes to SNONCE leave; with none,
NOKEY and nothing else. -/
def Obligations.SalsaBlockAndStartNeedAKey : Prop :=
  decode 0x00000023 = .ok .salsaBlock ∧ decode 0x00000024 = .ok .salsaStart ∧
  (let block := Salsa.keystreamBlock #v[0x03020100, 0x07060504, 0x0b0a0908, 0x0f0e0d0c,
     0x13121110, 0x17161514, 0x1b1a1918, 0x1f1e1d1c] #v[0, 0] 0
   block[0] = 0x67f780b5 ∧ block[15] = 0xaf893e78) ∧
  ∀ s : State,
    (s.salsa.skeyed = true →
      exec .salsaBlock s = next { s with err := .ok, salsa := { s.salsa with
        shout := Salsa.keystreamBlock s.salsa.sk s.salsa.snonce
          (BitVec.ofNat 64 (s.salsa.sbctr[0].toNat + 2 ^ 32 * s.salsa.sbctr[1].toNat)) } } ∧
      exec .salsaStart s = next { s with err := .ok, salsa := { s.salsa with
        nl := s.salsa.snonce, bc := 0, off := 0, sexh := false, sstream := true } } ∧
      (∀ t, exec .salsaStart s = next t → (readReg .status t).getLsbD 2 = true ∧
        ∀ (i : Fin 2) (v : Word), (writeReg (.snonce i) v t).salsa.nl = s.salsa.snonce)) ∧
    (s.salsa.skeyed = false →
      exec .salsaBlock s = next { s with err := .nokey } ∧ exec .salsaStart s = next { s with err := .nokey })

/-- SALSA_XOR, whole (R180): its word and its example; NOSTREAM before EXHAUSTED; otherwise the byte, the block made
anew exactly at offset 0, and the position moved on, the last byte of the last block setting SEXH. -/
def Obligations.SalsaXorCiphersOneByte : Prop :=
  decode 0x00000025 = .ok .salsaXor ∧
  0x74 ^^^ Salsa.streamByte #v[0x03020100, 0x07060504, 0x0b0a0908, 0x0f0e0d0c,
    0x13121110, 0x17161514, 0x1b1a1918, 0x1f1e1d1c] #v[0, 0] 0 = 0xc1 ∧
  ∀ s : State,
    (s.salsa.sstream = false → exec .salsaXor s = next { s with err := .nostream }) ∧
    (s.Inv → s.salsa.sstream = true → s.salsa.skeyed = true) ∧
    (s.salsa.sstream = true → s.salsa.sexh = true → exec .salsaXor s = next { s with err := .exhausted }) ∧
    (s.salsa.sstream = true → s.salsa.sexh = false →
      ∃ (ks : Vector Word 16) (t : State),
        ks = (if s.salsa.off = 0 then Salsa.keystreamBlock s.salsa.sk s.salsa.nl s.salsa.bc else s.salsa.ks) ∧
        exec .salsaXor s = next t ∧
        t = { s with err := .ok, salsa := { s.salsa with
                ks := ks, sdout := t.salsa.sdout, off := s.salsa.off + 1,
                bc := t.salsa.bc, sexh := t.salsa.sexh } } ∧
        (∀ h : s.salsa.off.toNat / 4 < 16,
          t.salsa.sdout = ((s.salsa.sdin.extractLsb' 0 8) ^^^
            (ks[s.salsa.off.toNat / 4]).extractLsb' (8 * (s.salsa.off.toNat % 4)) 8).setWidth 32) ∧
        (s.salsa.off ≠ 63 → t.salsa.bc = s.salsa.bc ∧ t.salsa.sexh = false) ∧
        (s.salsa.off = 63 → s.salsa.bc ≠ BitVec.allOnes 64 → t.salsa.bc = s.salsa.bc + 1 ∧ t.salsa.sexh = false) ∧
        (s.salsa.off = 63 → s.salsa.bc = BitVec.allOnes 64 → t.salsa.bc = s.salsa.bc ∧ t.salsa.sexh = true))

/-- R181: the nonce written, SALSA_START, and one SALSA_XOR for each byte leave as the bytes read the encryption of
the message under the latched key and that nonce, for every message shorter than 2^70 bytes; and the three other
ciphering commands write SHOUT alone, so they do not disturb a stream. The spec marks this as its own derivation. -/
def Obligations.SalsaStreamIsSalsaEncrypt : Prop :=
  ∀ (s : State) (n0 n1 : Word) (m : List Byte), s.salsa.skeyed = true → m.length < 2 ^ 70 →
    ∃ rs t, serveAll ([.memWrite 0x220 n0, .memWrite 0x224 n1, .memWrite 0x008 0x00000024] ++
        xorLoop .sdin .sdout .salsaXor m) s = some (rs, t) ∧
      readData rs = (Salsa.encrypt s.salsa.sk #v[n0, n1] m).map (fun b => b.setWidth 32) ∧ t.err = .ok ∧
      ∀ (i : Instr) (u v : State), i = .salsaQr ∨ i = .salsaHash ∨ i = .salsaBlock → exec i u = next v →
        v.salsa = { u.salsa with shout := v.salsa.shout }

/-- R168 and R87: byte `i` of a message is ciphered with byte `i mod 64` of the block of counter `i div 64`, and
encryption is its own inverse under one key and nonce. The spec defines the function for messages of at most 2^70
bytes; that it is total, the counter taken modulo 2^64 beyond, is the model's choice (assumption log 16). -/
def Obligations.SalsaEncryptCiphersByteByByte : Prop :=
  ∀ (sk : Vector Word 8) (n : Vector Word 2) (m : List Byte), (Salsa.encrypt sk n m).length = m.length ∧
    Salsa.encrypt sk n (Salsa.encrypt sk n m) = m ∧
    ∀ (i : Nat) (h : i < m.length), (Salsa.encrypt sk n m)[i]? =
      some (m[i] ^^^ byte ((Salsa.keystreamBlock sk n (BitVec.ofNat 64 (i / 64)))[i % 64 / 4]'(by omega)) (i % 4))

/-- R178, R181 and R278: no command but SALSA_KEY, SALSA_START, SALSA_XOR and SRST moves or changes the open stream. -/
def Obligations.OtherCommandsLeaveTheStream : Prop :=
  ∀ (i : Instr) (s t : State), i ≠ .salsaKey → i ≠ .salsaStart → i ≠ .salsaXor → i ≠ .srst → exec i s = next t →
    t.salsa.sk = s.salsa.sk ∧ t.salsa.skeyed = s.salsa.skeyed ∧ t.salsa.nl = s.salsa.nl ∧ t.salsa.bc = s.salsa.bc ∧
    t.salsa.off = s.salsa.off ∧ t.salsa.ks = s.salsa.ks ∧ t.salsa.sstream = s.salsa.sstream ∧
    t.salsa.sexh = s.salsa.sexh

/-! ## Trivium -/

/-- R201 and R202: the storage mapping of a position, and the shift, by positions and by storage bytes. The mapping
and the storage form are the spec's own derivation. -/
def Obligations.ShiftMovesEveryBitOnePlace : Prop :=
  ∀ (n : Nat) (r : BitVec n) (f : Bool), 0 < n →
    (∀ p, 1 ≤ p → p ≤ n → Triv.bit r p = (Triv.storageByte r ((p - 1) / 8)).getLsbD (7 - (p - 1) % 8)) ∧
    Triv.bit (Triv.shiftIn r f) 1 = f ∧
    (∀ p, 2 ≤ p → p ≤ n → Triv.bit (Triv.shiftIn r f) p = Triv.bit r (p - 1)) ∧
    (Triv.storageByte (Triv.shiftIn r f) 0).getLsbD 7 = f ∧
    (∀ k, 8 * (k + 1) < n →
      (Triv.storageByte (Triv.shiftIn r f) (k + 1)).getLsbD 7 = (Triv.storageByte r k).getLsbD 0) ∧
    (∀ k m, m < 7 → 8 * k + 7 - m < n →
      (Triv.storageByte (Triv.shiftIn r f) k).getLsbD m = (Triv.storageByte r k).getLsbD (m + 1))

/-- R203 to R208: one clock, from the bits of the registers before it; bit `p - 1` of a vector is logical position
`p`; the output form of this hardware is `doc`. The bit positions and the routing are what the spec supplies from
general knowledge (assumption log 12). -/
def Obligations.ClockIsAsGiven : Prop :=
  Config.trivZForm = .doc ∧
  ∀ r : TrivRegs,
    let lin1 := r.r1.getLsbD 65 ^^ r.r1.getLsbD 92
    let lin2 := r.r2.getLsbD 68 ^^ r.r2.getLsbD 83
    let lin3 := r.r3.getLsbD 65 ^^ r.r3.getLsbD 110
    let tap1 := lin1 ^^ (r.r1.getLsbD 90 && r.r1.getLsbD 91)
    let tap2 := lin2 ^^ (r.r2.getLsbD 81 && r.r2.getLsbD 82)
    let tap3 := lin3 ^^ (r.r3.getLsbD 108 && r.r3.getLsbD 109)
    (Triv.clock .doc r).2 = (tap1 ^^ tap2 ^^ tap3) ∧ (Triv.clock .estream r).2 = (lin1 ^^ lin2 ^^ lin3) ∧
    ∀ form, (Triv.clock form r).1 =
      { r1 := Triv.shiftIn r.r1 (tap3 ^^ r.r1.getLsbD 68), r2 := Triv.shiftIn r.r2 (tap1 ^^ r.r2.getLsbD 77),
        r3 := Triv.shiftIn r.r3 (tap2 ^^ r.r3.getLsbD 86) }

/-- R207: the choice of output form never changes the registers, over any number of clocks or bytes. -/
def Obligations.OutputFormNeverChangesTheRegisters : Prop :=
  ∀ (r : TrivRegs), (∀ n, Triv.clocks .doc n r = Triv.clocks .estream n r) ∧
    (∀ m, (Triv.encrypt .doc m r).2 = (Triv.encrypt .estream m r).2) ∧
    (∀ iv key, Triv.construct .doc iv key = Triv.construct .estream iv key)

/-- R209: the first of the eight clocks gives bit 7 of the byte and the eighth bit 0, and the registers move eight
clocks. -/
def Obligations.ByteIsEightBitsFirstHighest : Prop :=
  ∀ (form : ZForm) (r : TrivRegs),
    (∀ j, j < 8 → (Triv.clockByte form r).2.getLsbD (7 - j) = (Triv.clock form (Triv.clocks form j r)).2) ∧
    (Triv.clockByte form r).1 = Triv.clocks form 8 r

/-- R210: the load, position by position. The bit order is the spec's own derivation and the zero fill its decision
D26. -/
def Obligations.LoadIsAsGiven : Prop :=
  ∀ iv key : Vector Byte 10,
    let r := Triv.load iv key
    (∀ k m : Nat, ∀ hk : k < 10, m < 8 → Triv.bit r.r1 (8 * k + m + 1) = iv[k].getLsbD (7 - m) ∧
      Triv.bit r.r2 (8 * k + m + 1) = key[k].getLsbD (7 - m)) ∧
    (∀ p, 81 ≤ p → p ≤ 93 → Triv.bit r.r1 p = false) ∧
    (∀ p, 81 ≤ p → p ≤ 84 → Triv.bit r.r2 p = false) ∧
    (∀ p, 1 ≤ p → p ≤ 111 → Triv.bit r.r3 p = decide (p = 111)) ∧
    (∀ k : Fin 10, Triv.storageByte r.r1 k.val = iv[k.val] ∧ Triv.storageByte r.r2 k.val = key[k.val])

/-- TRIV_INIT (R220, R211): its word; whatever the engine held, the load of TIV and TKEY and 1152 clocks; TDOUT stays. -/
def Obligations.TrivInitConstructsAfresh : Prop :=
  decode 0x00000030 = .ok .trivInit ∧
  ∀ s : State, exec .trivInit s = next { s with
    err := .ok,
    triv := { s.triv with
      tstate := .producing,
      regs := Triv.clocks .doc 1152 (Triv.load
        (.ofFn fun j : Fin 10 => (s.triv.tiv[j.val / 4]).extractLsb' (8 * (j.val % 4)) 8)
        (.ofFn fun j : Fin 10 => (s.triv.tkey[j.val / 4]).extractLsb' (8 * (j.val % 4)) 8)) } }

/-- TRIV_CLK, TRIV_BYTE and TRIV_XOR (R221 to R223): their words; in the `doc` form of this hardware: in *producing*
they clock the registers and write TDOUT; before that they raise NOTINIT and change nothing else. -/
def Obligations.TriviumClockCommandsWriteTdout : Prop :=
  decode 0x00000031 = .ok .trivClk ∧ decode 0x00000032 = .ok .trivByte ∧ decode 0x00000033 = .ok .trivXor ∧
  ∀ s : State,
    (s.triv.tstate = .producing →
      exec .trivClk s = next { s with err := .ok, triv := { s.triv with
        regs := (Triv.clock .doc s.triv.regs).1,
        tdout := if (Triv.clock .doc s.triv.regs).2 then 1 else 0 } } ∧
      exec .trivByte s = next { s with err := .ok, triv := { s.triv with
        regs := (Triv.clockByte .doc s.triv.regs).1,
        tdout := (Triv.clockByte .doc s.triv.regs).2.setWidth 32 } } ∧
      exec .trivXor s = next { s with err := .ok, triv := { s.triv with
        regs := (Triv.clockByte .doc s.triv.regs).1,
        tdout := (s.triv.tdin.extractLsb' 0 8 ^^^ (Triv.clockByte .doc s.triv.regs).2).setWidth 32 } }) ∧
    (s.triv.tstate ≠ .producing →
      exec .trivClk s = next { s with err := .notinit } ∧ exec .trivByte s = next { s with err := .notinit } ∧
      exec .trivXor s = next { s with err := .notinit })

/-- R221: eight TRIV_CLK in a row, TDOUT read after each, give the bits of one TRIV_BYTE in the same order and leave the
same registers. -/
def Obligations.EightClocksAreOneByte : Prop :=
  ∀ s t : State, s.triv.tstate = .producing → exec .trivByte s = next t →
    ∃ rs u, serveAll (List.replicate 8 [Access.memWrite 0x008 0x00000031, .memRead 0x324]).flatten s = some (rs, u) ∧
      u.triv.regs = t.triv.regs ∧
      readData rs = (List.range 8).map fun j => if t.triv.tdout.getLsbD (7 - j) then 1 else 0

/-- R224: TRIV_INIT and one TRIV_XOR for each byte leave as the bytes read the encryption of the message on freshly
constructed registers. The spec marks this as its own derivation. -/
def Obligations.TriviumStreamIsTriviumEncrypt : Prop :=
  ∀ (s : State) (m : List Byte),
    let fresh := Triv.construct .doc (trivBytes s.triv.tiv) (trivBytes s.triv.tkey)
    ∃ rs t, serveAll (.memWrite 0x008 0x00000030 :: xorLoop .tdin .tdout .trivXor m) s = some (rs, t) ∧
      readData rs = (Triv.encrypt .doc m fresh).1.map (fun b => b.setWidth 32) ∧
      t.triv.regs = (Triv.encrypt .doc m fresh).2 ∧ t.err = .ok

/-- R214: a message encrypted and then encrypted again from the same registers is the message, in either output form. -/
def Obligations.TriviumFreshInstanceDecrypts : Prop :=
  ∀ (form : ZForm) (m : List Byte) (r : TrivRegs),
    (Triv.encrypt form (Triv.encrypt form m r).1 r).1 = m ∧
    (Triv.encrypt form (Triv.encrypt form m r).1 r).2 = (Triv.encrypt form m r).2

/-! ## All commands -/

/-- R254: a command of one engine leaves the other engines' state, and what it does to its own engine and to ERR depends
on its own engine's state alone. -/
def Obligations.EnginesAreIndependent : Prop :=
  ∀ (i : Instr) (s t s' t' : State), exec i s = next t → exec i s' = next t' →
    (i.family = .mars → t.salsa = s.salsa ∧ t.triv = s.triv ∧
      (s.mars = s'.mars → t.mars = t'.mars ∧ t.err = t'.err)) ∧
    (i.family = .salsa → t.mars = s.mars ∧ t.triv = s.triv ∧
      (s.salsa = s'.salsa → t.salsa = t'.salsa ∧ t.err = t'.err)) ∧
    (i.family = .trivium → t.mars = s.mars ∧ t.salsa = s.salsa ∧
      (s.triv = s'.triv → t.triv = t'.triv ∧ t.err = t'.err))

/-- R279: commands of two different engines may come in either order; only ERR, which reports the later one, can tell. -/
def Obligations.CommandsOfDifferentEnginesCommute : Prop :=
  ∀ (i j : Instr) (s : State), i.family ≠ .control → j.family ≠ .control → i.family ≠ j.family →
    ∃ si sij sj sji, exec i s = next si ∧ exec j si = next sij ∧ exec j s = next sj ∧ exec i sj = next sji ∧
      sij.mars = sji.mars ∧ sij.salsa = sji.salsa ∧ sij.triv = sji.triv ∧
      sij.err = sj.err ∧ sji.err = si.err

/-- R242: a command that ends in an error writes no register and no latched state but ERR, except that MARS_KEY discards
the schedule on KEYLEN; a word that decodes to no command sets ERR alone. -/
def Obligations.ErrorsChangeNothingButErr : Prop :=
  (∀ (v : Word) (e : Illegal) (s : State), decode v = .error e → runCommand v s = next { s with err := .illegal }) ∧
  ∀ (i : Instr) (s t : State), exec i s = next t → t.err ≠ .ok →
    t = { s with err := t.err } ∨
    (∃ n, i = .marsKey n ∧ t = { s with
      err := .keylen, mars := { s.mars with k := .replicate 40 0, mkeyed := false, mklen := 0 } })

/-- R241: the errors each command can raise and no others, each raised somewhere. -/
def Obligations.EachCommandRaisesItsOwnErrors : Prop :=
  (∀ (i : Instr) (s t : State), exec i s = next t → t.err = .ok ∨ i.mayRaise t.err = true) ∧
  (∀ (i : Instr) (e : ErrCode), i.wf = true → i.mayRaise e = true →
    ∃ (j : Instr) (s t : State), j.rowMatch = i.rowMatch ∧ j.wf = true ∧ s.Inv ∧ exec j s = next t ∧ t.err = e)

/-- R276: a command changes no register that the host can read but STATUS and those it may write, of which SRST alone
writes a staging register. -/
def Obligations.CommandsChangeOnlyTheirResults : Prop :=
  ∀ (i : Instr) (s t : State) (r : Reg), exec i s = next t →
    (r ≠ .status → i.mayWrite r = false → readReg r t = readReg r s) ∧
    t.port = s.port ∧ t.resetPin = s.resetPin ∧ t.response = s.response ∧
    (i ≠ .srst → r.kind = .readWrite → readReg r t = readReg r s)
end

