-- ==== Sys2Proof/Laws/State.lean ====
section
/-! SUPPORT. Each field after each named update, one lemma per field, all true by definition. -/

namespace Sys2Proof.Machine

variable (s : State)

@[simp] theorem State.setErr_err (e : ErrCode) : (s.setErr e).err = e := rfl
@[simp] theorem State.setErr_mars (e : ErrCode) : (s.setErr e).mars = s.mars := rfl
@[simp] theorem State.setErr_salsa (e : ErrCode) : (s.setErr e).salsa = s.salsa := rfl
@[simp] theorem State.setErr_triv (e : ErrCode) : (s.setErr e).triv = s.triv := rfl
@[simp] theorem State.setErr_port (e : ErrCode) : (s.setErr e).port = s.port := rfl
@[simp] theorem State.setErr_resetPin (e : ErrCode) : (s.setErr e).resetPin = s.resetPin := rfl
@[simp] theorem State.setErr_response (e : ErrCode) : (s.setErr e).response = s.response := rfl

@[simp] theorem State.setMOut_err (v : Vector Word 4) : (s.setMOut v).err = s.err := rfl
@[simp] theorem State.setMOut_mkey (v : Vector Word 4) : (s.setMOut v).mars.mkey = s.mars.mkey := rfl
@[simp] theorem State.setMOut_mIn (v : Vector Word 4) : (s.setMOut v).mars.mIn = s.mars.mIn := rfl
@[simp] theorem State.setMOut_mOut (v : Vector Word 4) : (s.setMOut v).mars.mOut = v := rfl
@[simp] theorem State.setMOut_marg (v : Vector Word 4) : (s.setMOut v).mars.marg = s.mars.marg := rfl
@[simp] theorem State.setMOut_mres (v : Vector Word 4) : (s.setMOut v).mars.mres = s.mars.mres := rfl
@[simp] theorem State.setMOut_k (v : Vector Word 4) : (s.setMOut v).mars.k = s.mars.k := rfl
@[simp] theorem State.setMOut_mkeyed (v : Vector Word 4) : (s.setMOut v).mars.mkeyed = s.mars.mkeyed := rfl
@[simp] theorem State.setMOut_mklen (v : Vector Word 4) : (s.setMOut v).mars.mklen = s.mars.mklen := rfl
@[simp] theorem State.setMOut_salsa (v : Vector Word 4) : (s.setMOut v).salsa = s.salsa := rfl
@[simp] theorem State.setMOut_triv (v : Vector Word 4) : (s.setMOut v).triv = s.triv := rfl
@[simp] theorem State.setMOut_port (v : Vector Word 4) : (s.setMOut v).port = s.port := rfl
@[simp] theorem State.setMOut_resetPin (v : Vector Word 4) : (s.setMOut v).resetPin = s.resetPin := rfl
@[simp] theorem State.setMOut_response (v : Vector Word 4) : (s.setMOut v).response = s.response := rfl

@[simp] theorem State.setMRes_err (w : Word) : (s.setMRes w).err = s.err := rfl
@[simp] theorem State.setMRes_mkey (w : Word) : (s.setMRes w).mars.mkey = s.mars.mkey := rfl
@[simp] theorem State.setMRes_mIn (w : Word) : (s.setMRes w).mars.mIn = s.mars.mIn := rfl
@[simp] theorem State.setMRes_mOut (w : Word) : (s.setMRes w).mars.mOut = s.mars.mOut := rfl
@[simp] theorem State.setMRes_marg (w : Word) : (s.setMRes w).mars.marg = s.mars.marg := rfl
@[simp] theorem State.setMRes_mres (w : Word) : (s.setMRes w).mars.mres = w := rfl
@[simp] theorem State.setMRes_k (w : Word) : (s.setMRes w).mars.k = s.mars.k := rfl
@[simp] theorem State.setMRes_mkeyed (w : Word) : (s.setMRes w).mars.mkeyed = s.mars.mkeyed := rfl
@[simp] theorem State.setMRes_mklen (w : Word) : (s.setMRes w).mars.mklen = s.mars.mklen := rfl
@[simp] theorem State.setMRes_salsa (w : Word) : (s.setMRes w).salsa = s.salsa := rfl
@[simp] theorem State.setMRes_triv (w : Word) : (s.setMRes w).triv = s.triv := rfl
@[simp] theorem State.setMRes_port (w : Word) : (s.setMRes w).port = s.port := rfl
@[simp] theorem State.setMRes_resetPin (w : Word) : (s.setMRes w).resetPin = s.resetPin := rfl
@[simp] theorem State.setMRes_response (w : Word) : (s.setMRes w).response = s.response := rfl

@[simp] theorem State.latchMars_err (k : Vector Word 40) (b : Bool) (n : BitVec 4) :
    (s.latchMars k b n).err = s.err := rfl
@[simp] theorem State.latchMars_mkey (k : Vector Word 40) (b : Bool) (n : BitVec 4) :
    (s.latchMars k b n).mars.mkey = s.mars.mkey := rfl
@[simp] theorem State.latchMars_mIn (k : Vector Word 40) (b : Bool) (n : BitVec 4) :
    (s.latchMars k b n).mars.mIn = s.mars.mIn := rfl
@[simp] theorem State.latchMars_mOut (k : Vector Word 40) (b : Bool) (n : BitVec 4) :
    (s.latchMars k b n).mars.mOut = s.mars.mOut := rfl
@[simp] theorem State.latchMars_marg (k : Vector Word 40) (b : Bool) (n : BitVec 4) :
    (s.latchMars k b n).mars.marg = s.mars.marg := rfl
@[simp] theorem State.latchMars_mres (k : Vector Word 40) (b : Bool) (n : BitVec 4) :
    (s.latchMars k b n).mars.mres = s.mars.mres := rfl
@[simp] theorem State.latchMars_k (k : Vector Word 40) (b : Bool) (n : BitVec 4) : (s.latchMars k b n).mars.k = k := rfl
@[simp] theorem State.latchMars_mkeyed (k : Vector Word 40) (b : Bool) (n : BitVec 4) :
    (s.latchMars k b n).mars.mkeyed = b := rfl
@[simp] theorem State.latchMars_mklen (k : Vector Word 40) (b : Bool) (n : BitVec 4) :
    (s.latchMars k b n).mars.mklen = n := rfl
@[simp] theorem State.latchMars_salsa (k : Vector Word 40) (b : Bool) (n : BitVec 4) :
    (s.latchMars k b n).salsa = s.salsa := rfl
@[simp] theorem State.latchMars_triv (k : Vector Word 40) (b : Bool) (n : BitVec 4) :
    (s.latchMars k b n).triv = s.triv := rfl
@[simp] theorem State.latchMars_port (k : Vector Word 40) (b : Bool) (n : BitVec 4) :
    (s.latchMars k b n).port = s.port := rfl
@[simp] theorem State.latchMars_resetPin (k : Vector Word 40) (b : Bool) (n : BitVec 4) :
    (s.latchMars k b n).resetPin = s.resetPin := rfl
@[simp] theorem State.latchMars_response (k : Vector Word 40) (b : Bool) (n : BitVec 4) :
    (s.latchMars k b n).response = s.response := rfl

@[simp] theorem State.setShout_err (v : Vector Word 16) : (s.setShout v).err = s.err := rfl
@[simp] theorem State.setShout_mars (v : Vector Word 16) : (s.setShout v).mars = s.mars := rfl
@[simp] theorem State.setShout_skey (v : Vector Word 16) : (s.setShout v).salsa.skey = s.salsa.skey := rfl
@[simp] theorem State.setShout_snonce (v : Vector Word 16) : (s.setShout v).salsa.snonce = s.salsa.snonce := rfl
@[simp] theorem State.setShout_sbctr (v : Vector Word 16) : (s.setShout v).salsa.sbctr = s.salsa.sbctr := rfl
@[simp] theorem State.setShout_shin (v : Vector Word 16) : (s.setShout v).salsa.shin = s.salsa.shin := rfl
@[simp] theorem State.setShout_shout (v : Vector Word 16) : (s.setShout v).salsa.shout = v := rfl
@[simp] theorem State.setShout_sdin (v : Vector Word 16) : (s.setShout v).salsa.sdin = s.salsa.sdin := rfl
@[simp] theorem State.setShout_sdout (v : Vector Word 16) : (s.setShout v).salsa.sdout = s.salsa.sdout := rfl
@[simp] theorem State.setShout_sk (v : Vector Word 16) : (s.setShout v).salsa.sk = s.salsa.sk := rfl
@[simp] theorem State.setShout_skeyed (v : Vector Word 16) : (s.setShout v).salsa.skeyed = s.salsa.skeyed := rfl
@[simp] theorem State.setShout_nl (v : Vector Word 16) : (s.setShout v).salsa.nl = s.salsa.nl := rfl
@[simp] theorem State.setShout_bc (v : Vector Word 16) : (s.setShout v).salsa.bc = s.salsa.bc := rfl
@[simp] theorem State.setShout_off (v : Vector Word 16) : (s.setShout v).salsa.off = s.salsa.off := rfl
@[simp] theorem State.setShout_ks (v : Vector Word 16) : (s.setShout v).salsa.ks = s.salsa.ks := rfl
@[simp] theorem State.setShout_sstream (v : Vector Word 16) : (s.setShout v).salsa.sstream = s.salsa.sstream := rfl
@[simp] theorem State.setShout_sexh (v : Vector Word 16) : (s.setShout v).salsa.sexh = s.salsa.sexh := rfl
@[simp] theorem State.setShout_triv (v : Vector Word 16) : (s.setShout v).triv = s.triv := rfl
@[simp] theorem State.setShout_port (v : Vector Word 16) : (s.setShout v).port = s.port := rfl
@[simp] theorem State.setShout_resetPin (v : Vector Word 16) : (s.setShout v).resetPin = s.resetPin := rfl
@[simp] theorem State.setShout_response (v : Vector Word 16) : (s.setShout v).response = s.response := rfl

@[simp] theorem State.setSdout_err (w : Word) : (s.setSdout w).err = s.err := rfl
@[simp] theorem State.setSdout_mars (w : Word) : (s.setSdout w).mars = s.mars := rfl
@[simp] theorem State.setSdout_skey (w : Word) : (s.setSdout w).salsa.skey = s.salsa.skey := rfl
@[simp] theorem State.setSdout_snonce (w : Word) : (s.setSdout w).salsa.snonce = s.salsa.snonce := rfl
@[simp] theorem State.setSdout_sbctr (w : Word) : (s.setSdout w).salsa.sbctr = s.salsa.sbctr := rfl
@[simp] theorem State.setSdout_shin (w : Word) : (s.setSdout w).salsa.shin = s.salsa.shin := rfl
@[simp] theorem State.setSdout_shout (w : Word) : (s.setSdout w).salsa.shout = s.salsa.shout := rfl
@[simp] theorem State.setSdout_sdin (w : Word) : (s.setSdout w).salsa.sdin = s.salsa.sdin := rfl
@[simp] theorem State.setSdout_sdout (w : Word) : (s.setSdout w).salsa.sdout = w := rfl
@[simp] theorem State.setSdout_sk (w : Word) : (s.setSdout w).salsa.sk = s.salsa.sk := rfl
@[simp] theorem State.setSdout_skeyed (w : Word) : (s.setSdout w).salsa.skeyed = s.salsa.skeyed := rfl
@[simp] theorem State.setSdout_nl (w : Word) : (s.setSdout w).salsa.nl = s.salsa.nl := rfl
@[simp] theorem State.setSdout_bc (w : Word) : (s.setSdout w).salsa.bc = s.salsa.bc := rfl
@[simp] theorem State.setSdout_off (w : Word) : (s.setSdout w).salsa.off = s.salsa.off := rfl
@[simp] theorem State.setSdout_ks (w : Word) : (s.setSdout w).salsa.ks = s.salsa.ks := rfl
@[simp] theorem State.setSdout_sstream (w : Word) : (s.setSdout w).salsa.sstream = s.salsa.sstream := rfl
@[simp] theorem State.setSdout_sexh (w : Word) : (s.setSdout w).salsa.sexh = s.salsa.sexh := rfl
@[simp] theorem State.setSdout_triv (w : Word) : (s.setSdout w).triv = s.triv := rfl
@[simp] theorem State.setSdout_port (w : Word) : (s.setSdout w).port = s.port := rfl
@[simp] theorem State.setSdout_resetPin (w : Word) : (s.setSdout w).resetPin = s.resetPin := rfl
@[simp] theorem State.setSdout_response (w : Word) : (s.setSdout w).response = s.response := rfl

@[simp] theorem State.latchSalsa_err (v : Vector Word 8) : (s.latchSalsa v).err = s.err := rfl
@[simp] theorem State.latchSalsa_mars (v : Vector Word 8) : (s.latchSalsa v).mars = s.mars := rfl
@[simp] theorem State.latchSalsa_skey (v : Vector Word 8) : (s.latchSalsa v).salsa.skey = s.salsa.skey := rfl
@[simp] theorem State.latchSalsa_snonce (v : Vector Word 8) : (s.latchSalsa v).salsa.snonce = s.salsa.snonce := rfl
@[simp] theorem State.latchSalsa_sbctr (v : Vector Word 8) : (s.latchSalsa v).salsa.sbctr = s.salsa.sbctr := rfl
@[simp] theorem State.latchSalsa_shin (v : Vector Word 8) : (s.latchSalsa v).salsa.shin = s.salsa.shin := rfl
@[simp] theorem State.latchSalsa_shout (v : Vector Word 8) : (s.latchSalsa v).salsa.shout = s.salsa.shout := rfl
@[simp] theorem State.latchSalsa_sdin (v : Vector Word 8) : (s.latchSalsa v).salsa.sdin = s.salsa.sdin := rfl
@[simp] theorem State.latchSalsa_sdout (v : Vector Word 8) : (s.latchSalsa v).salsa.sdout = s.salsa.sdout := rfl
@[simp] theorem State.latchSalsa_sk (v : Vector Word 8) : (s.latchSalsa v).salsa.sk = v := rfl
@[simp] theorem State.latchSalsa_skeyed (v : Vector Word 8) : (s.latchSalsa v).salsa.skeyed = true := rfl
@[simp] theorem State.latchSalsa_nl (v : Vector Word 8) : (s.latchSalsa v).salsa.nl = .replicate 2 0 := rfl
@[simp] theorem State.latchSalsa_bc (v : Vector Word 8) : (s.latchSalsa v).salsa.bc = 0 := rfl
@[simp] theorem State.latchSalsa_off (v : Vector Word 8) : (s.latchSalsa v).salsa.off = 0 := rfl
@[simp] theorem State.latchSalsa_ks (v : Vector Word 8) : (s.latchSalsa v).salsa.ks = .replicate 16 0 := rfl
@[simp] theorem State.latchSalsa_sstream (v : Vector Word 8) : (s.latchSalsa v).salsa.sstream = false := rfl
@[simp] theorem State.latchSalsa_sexh (v : Vector Word 8) : (s.latchSalsa v).salsa.sexh = false := rfl
@[simp] theorem State.latchSalsa_triv (v : Vector Word 8) : (s.latchSalsa v).triv = s.triv := rfl
@[simp] theorem State.latchSalsa_port (v : Vector Word 8) : (s.latchSalsa v).port = s.port := rfl
@[simp] theorem State.latchSalsa_resetPin (v : Vector Word 8) : (s.latchSalsa v).resetPin = s.resetPin := rfl
@[simp] theorem State.latchSalsa_response (v : Vector Word 8) : (s.latchSalsa v).response = s.response := rfl

@[simp] theorem State.openStream_err (v : Vector Word 2) : (s.openStream v).err = s.err := rfl
@[simp] theorem State.openStream_mars (v : Vector Word 2) : (s.openStream v).mars = s.mars := rfl
@[simp] theorem State.openStream_skey (v : Vector Word 2) : (s.openStream v).salsa.skey = s.salsa.skey := rfl
@[simp] theorem State.openStream_snonce (v : Vector Word 2) : (s.openStream v).salsa.snonce = s.salsa.snonce := rfl
@[simp] theorem State.openStream_sbctr (v : Vector Word 2) : (s.openStream v).salsa.sbctr = s.salsa.sbctr := rfl
@[simp] theorem State.openStream_shin (v : Vector Word 2) : (s.openStream v).salsa.shin = s.salsa.shin := rfl
@[simp] theorem State.openStream_shout (v : Vector Word 2) : (s.openStream v).salsa.shout = s.salsa.shout := rfl
@[simp] theorem State.openStream_sdin (v : Vector Word 2) : (s.openStream v).salsa.sdin = s.salsa.sdin := rfl
@[simp] theorem State.openStream_sdout (v : Vector Word 2) : (s.openStream v).salsa.sdout = s.salsa.sdout := rfl
@[simp] theorem State.openStream_sk (v : Vector Word 2) : (s.openStream v).salsa.sk = s.salsa.sk := rfl
@[simp] theorem State.openStream_skeyed (v : Vector Word 2) : (s.openStream v).salsa.skeyed = s.salsa.skeyed := rfl
@[simp] theorem State.openStream_nl (v : Vector Word 2) : (s.openStream v).salsa.nl = v := rfl
@[simp] theorem State.openStream_bc (v : Vector Word 2) : (s.openStream v).salsa.bc = 0 := rfl
@[simp] theorem State.openStream_off (v : Vector Word 2) : (s.openStream v).salsa.off = 0 := rfl
@[simp] theorem State.openStream_ks (v : Vector Word 2) : (s.openStream v).salsa.ks = s.salsa.ks := rfl
@[simp] theorem State.openStream_sstream (v : Vector Word 2) : (s.openStream v).salsa.sstream = true := rfl
@[simp] theorem State.openStream_sexh (v : Vector Word 2) : (s.openStream v).salsa.sexh = false := rfl
@[simp] theorem State.openStream_triv (v : Vector Word 2) : (s.openStream v).triv = s.triv := rfl
@[simp] theorem State.openStream_port (v : Vector Word 2) : (s.openStream v).port = s.port := rfl
@[simp] theorem State.openStream_resetPin (v : Vector Word 2) : (s.openStream v).resetPin = s.resetPin := rfl
@[simp] theorem State.openStream_response (v : Vector Word 2) : (s.openStream v).response = s.response := rfl

@[simp] theorem State.setKs_err (v : Vector Word 16) : (s.setKs v).err = s.err := rfl
@[simp] theorem State.setKs_mars (v : Vector Word 16) : (s.setKs v).mars = s.mars := rfl
@[simp] theorem State.setKs_skey (v : Vector Word 16) : (s.setKs v).salsa.skey = s.salsa.skey := rfl
@[simp] theorem State.setKs_snonce (v : Vector Word 16) : (s.setKs v).salsa.snonce = s.salsa.snonce := rfl
@[simp] theorem State.setKs_sbctr (v : Vector Word 16) : (s.setKs v).salsa.sbctr = s.salsa.sbctr := rfl
@[simp] theorem State.setKs_shin (v : Vector Word 16) : (s.setKs v).salsa.shin = s.salsa.shin := rfl
@[simp] theorem State.setKs_shout (v : Vector Word 16) : (s.setKs v).salsa.shout = s.salsa.shout := rfl
@[simp] theorem State.setKs_sdin (v : Vector Word 16) : (s.setKs v).salsa.sdin = s.salsa.sdin := rfl
@[simp] theorem State.setKs_sdout (v : Vector Word 16) : (s.setKs v).salsa.sdout = s.salsa.sdout := rfl
@[simp] theorem State.setKs_sk (v : Vector Word 16) : (s.setKs v).salsa.sk = s.salsa.sk := rfl
@[simp] theorem State.setKs_skeyed (v : Vector Word 16) : (s.setKs v).salsa.skeyed = s.salsa.skeyed := rfl
@[simp] theorem State.setKs_nl (v : Vector Word 16) : (s.setKs v).salsa.nl = s.salsa.nl := rfl
@[simp] theorem State.setKs_bc (v : Vector Word 16) : (s.setKs v).salsa.bc = s.salsa.bc := rfl
@[simp] theorem State.setKs_off (v : Vector Word 16) : (s.setKs v).salsa.off = s.salsa.off := rfl
@[simp] theorem State.setKs_ks (v : Vector Word 16) : (s.setKs v).salsa.ks = v := rfl
@[simp] theorem State.setKs_sstream (v : Vector Word 16) : (s.setKs v).salsa.sstream = s.salsa.sstream := rfl
@[simp] theorem State.setKs_sexh (v : Vector Word 16) : (s.setKs v).salsa.sexh = s.salsa.sexh := rfl
@[simp] theorem State.setKs_triv (v : Vector Word 16) : (s.setKs v).triv = s.triv := rfl
@[simp] theorem State.setKs_port (v : Vector Word 16) : (s.setKs v).port = s.port := rfl
@[simp] theorem State.setKs_resetPin (v : Vector Word 16) : (s.setKs v).resetPin = s.resetPin := rfl
@[simp] theorem State.setKs_response (v : Vector Word 16) : (s.setKs v).response = s.response := rfl

@[simp] theorem State.setPosition_err (c : BitVec 64) (o : BitVec 6) (x : Bool) :
    (s.setPosition c o x).err = s.err := rfl
@[simp] theorem State.setPosition_mars (c : BitVec 64) (o : BitVec 6) (x : Bool) :
    (s.setPosition c o x).mars = s.mars := rfl
@[simp] theorem State.setPosition_skey (c : BitVec 64) (o : BitVec 6) (x : Bool) :
    (s.setPosition c o x).salsa.skey = s.salsa.skey := rfl
@[simp] theorem State.setPosition_snonce (c : BitVec 64) (o : BitVec 6) (x : Bool) :
    (s.setPosition c o x).salsa.snonce = s.salsa.snonce := rfl
@[simp] theorem State.setPosition_sbctr (c : BitVec 64) (o : BitVec 6) (x : Bool) :
    (s.setPosition c o x).salsa.sbctr = s.salsa.sbctr := rfl
@[simp] theorem State.setPosition_shin (c : BitVec 64) (o : BitVec 6) (x : Bool) :
    (s.setPosition c o x).salsa.shin = s.salsa.shin := rfl
@[simp] theorem State.setPosition_shout (c : BitVec 64) (o : BitVec 6) (x : Bool) :
    (s.setPosition c o x).salsa.shout = s.salsa.shout := rfl
@[simp] theorem State.setPosition_sdin (c : BitVec 64) (o : BitVec 6) (x : Bool) :
    (s.setPosition c o x).salsa.sdin = s.salsa.sdin := rfl
@[simp] theorem State.setPosition_sdout (c : BitVec 64) (o : BitVec 6) (x : Bool) :
    (s.setPosition c o x).salsa.sdout = s.salsa.sdout := rfl
@[simp] theorem State.setPosition_sk (c : BitVec 64) (o : BitVec 6) (x : Bool) :
    (s.setPosition c o x).salsa.sk = s.salsa.sk := rfl
@[simp] theorem State.setPosition_skeyed (c : BitVec 64) (o : BitVec 6) (x : Bool) :
    (s.setPosition c o x).salsa.skeyed = s.salsa.skeyed := rfl
@[simp] theorem State.setPosition_nl (c : BitVec 64) (o : BitVec 6) (x : Bool) :
    (s.setPosition c o x).salsa.nl = s.salsa.nl := rfl
@[simp] theorem State.setPosition_bc (c : BitVec 64) (o : BitVec 6) (x : Bool) :
    (s.setPosition c o x).salsa.bc = c := rfl
@[simp] theorem State.setPosition_off (c : BitVec 64) (o : BitVec 6) (x : Bool) :
    (s.setPosition c o x).salsa.off = o := rfl
@[simp] theorem State.setPosition_ks (c : BitVec 64) (o : BitVec 6) (x : Bool) :
    (s.setPosition c o x).salsa.ks = s.salsa.ks := rfl
@[simp] theorem State.setPosition_sstream (c : BitVec 64) (o : BitVec 6) (x : Bool) :
    (s.setPosition c o x).salsa.sstream = s.salsa.sstream := rfl
@[simp] theorem State.setPosition_sexh (c : BitVec 64) (o : BitVec 6) (x : Bool) :
    (s.setPosition c o x).salsa.sexh = x := rfl
@[simp] theorem State.setPosition_triv (c : BitVec 64) (o : BitVec 6) (x : Bool) :
    (s.setPosition c o x).triv = s.triv := rfl
@[simp] theorem State.setPosition_port (c : BitVec 64) (o : BitVec 6) (x : Bool) :
    (s.setPosition c o x).port = s.port := rfl
@[simp] theorem State.setPosition_resetPin (c : BitVec 64) (o : BitVec 6) (x : Bool) :
    (s.setPosition c o x).resetPin = s.resetPin := rfl
@[simp] theorem State.setPosition_response (c : BitVec 64) (o : BitVec 6) (x : Bool) :
    (s.setPosition c o x).response = s.response := rfl

@[simp] theorem State.setTdout_err (w : Word) : (s.setTdout w).err = s.err := rfl
@[simp] theorem State.setTdout_mars (w : Word) : (s.setTdout w).mars = s.mars := rfl
@[simp] theorem State.setTdout_salsa (w : Word) : (s.setTdout w).salsa = s.salsa := rfl
@[simp] theorem State.setTdout_tiv (w : Word) : (s.setTdout w).triv.tiv = s.triv.tiv := rfl
@[simp] theorem State.setTdout_tkey (w : Word) : (s.setTdout w).triv.tkey = s.triv.tkey := rfl
@[simp] theorem State.setTdout_tdin (w : Word) : (s.setTdout w).triv.tdin = s.triv.tdin := rfl
@[simp] theorem State.setTdout_tdout (w : Word) : (s.setTdout w).triv.tdout = w := rfl
@[simp] theorem State.setTdout_regs (w : Word) : (s.setTdout w).triv.regs = s.triv.regs := rfl
@[simp] theorem State.setTdout_tstate (w : Word) : (s.setTdout w).triv.tstate = s.triv.tstate := rfl
@[simp] theorem State.setTdout_port (w : Word) : (s.setTdout w).port = s.port := rfl
@[simp] theorem State.setTdout_resetPin (w : Word) : (s.setTdout w).resetPin = s.resetPin := rfl
@[simp] theorem State.setTdout_response (w : Word) : (s.setTdout w).response = s.response := rfl

@[simp] theorem State.setTrivRegs_err (r : TrivRegs) : (s.setTrivRegs r).err = s.err := rfl
@[simp] theorem State.setTrivRegs_mars (r : TrivRegs) : (s.setTrivRegs r).mars = s.mars := rfl
@[simp] theorem State.setTrivRegs_salsa (r : TrivRegs) : (s.setTrivRegs r).salsa = s.salsa := rfl
@[simp] theorem State.setTrivRegs_tiv (r : TrivRegs) : (s.setTrivRegs r).triv.tiv = s.triv.tiv := rfl
@[simp] theorem State.setTrivRegs_tkey (r : TrivRegs) : (s.setTrivRegs r).triv.tkey = s.triv.tkey := rfl
@[simp] theorem State.setTrivRegs_tdin (r : TrivRegs) : (s.setTrivRegs r).triv.tdin = s.triv.tdin := rfl
@[simp] theorem State.setTrivRegs_tdout (r : TrivRegs) : (s.setTrivRegs r).triv.tdout = s.triv.tdout := rfl
@[simp] theorem State.setTrivRegs_regs (r : TrivRegs) : (s.setTrivRegs r).triv.regs = r := rfl
@[simp] theorem State.setTrivRegs_tstate (r : TrivRegs) : (s.setTrivRegs r).triv.tstate = s.triv.tstate := rfl
@[simp] theorem State.setTrivRegs_port (r : TrivRegs) : (s.setTrivRegs r).port = s.port := rfl
@[simp] theorem State.setTrivRegs_resetPin (r : TrivRegs) : (s.setTrivRegs r).resetPin = s.resetPin := rfl
@[simp] theorem State.setTrivRegs_response (r : TrivRegs) : (s.setTrivRegs r).response = s.response := rfl

@[simp] theorem State.setTState_err (x : TState) : (s.setTState x).err = s.err := rfl
@[simp] theorem State.setTState_mars (x : TState) : (s.setTState x).mars = s.mars := rfl
@[simp] theorem State.setTState_salsa (x : TState) : (s.setTState x).salsa = s.salsa := rfl
@[simp] theorem State.setTState_tiv (x : TState) : (s.setTState x).triv.tiv = s.triv.tiv := rfl
@[simp] theorem State.setTState_tkey (x : TState) : (s.setTState x).triv.tkey = s.triv.tkey := rfl
@[simp] theorem State.setTState_tdin (x : TState) : (s.setTState x).triv.tdin = s.triv.tdin := rfl
@[simp] theorem State.setTState_tdout (x : TState) : (s.setTState x).triv.tdout = s.triv.tdout := rfl
@[simp] theorem State.setTState_regs (x : TState) : (s.setTState x).triv.regs = s.triv.regs := rfl
@[simp] theorem State.setTState_tstate (x : TState) : (s.setTState x).triv.tstate = x := rfl
@[simp] theorem State.setTState_port (x : TState) : (s.setTState x).port = s.port := rfl
@[simp] theorem State.setTState_resetPin (x : TState) : (s.setTState x).resetPin = s.resetPin := rfl
@[simp] theorem State.setTState_response (x : TState) : (s.setTState x).response = s.response := rfl

@[simp] theorem State.respond_err (r : Option Response) : (s.respond r).err = s.err := rfl
@[simp] theorem State.respond_mars (r : Option Response) : (s.respond r).mars = s.mars := rfl
@[simp] theorem State.respond_salsa (r : Option Response) : (s.respond r).salsa = s.salsa := rfl
@[simp] theorem State.respond_triv (r : Option Response) : (s.respond r).triv = s.triv := rfl
@[simp] theorem State.respond_port (r : Option Response) : (s.respond r).port = s.port := rfl
@[simp] theorem State.respond_resetPin (r : Option Response) : (s.respond r).resetPin = s.resetPin := rfl
@[simp] theorem State.respond_response (r : Option Response) : (s.respond r).response = r := rfl

@[simp] theorem State.resetCore_err : s.resetCore.err = .ok := rfl
@[simp] theorem State.resetCore_mars : s.resetCore.mars = .reset := rfl
@[simp] theorem State.resetCore_salsa : s.resetCore.salsa = .reset := rfl
@[simp] theorem State.resetCore_triv : s.resetCore.triv = .reset := rfl
@[simp] theorem State.resetCore_port : s.resetCore.port = s.port := rfl
@[simp] theorem State.resetCore_resetPin : s.resetCore.resetPin = s.resetPin := rfl
@[simp] theorem State.resetCore_response : s.resetCore.response = s.response := rfl

end Sys2Proof.Machine
end

