-- ==== Sys2Proof/Laws/Commands.lean ====
section
/-! SUPPORT. What each shared operation of the commands can do: how a command ends, what one engine's command can reach,
and SALSA_XOR's two halves. -/

namespace Sys2Proof.Machine

open Host.Outcome (next)

/-- A command that succeeds ends in the state it made with ERR = OK. -/
theorem succeed_eq (s : State) : succeed s = next (s.setErr .ok) := rfl

/-- A command that raises ends in the state it had made with its code in ERR. -/
theorem raiseCmdError_eq (code : ErrCode) (s : State) : raiseCmdError code s = next (s.setErr code) := rfl

/-- Every command answers a next state. -/
theorem exec_answers (i : Instr) (s : State) : ∃ t, exec i s = next t := by
  cases i <;>
    simp only [exec, execNop, execSrst, execMarsKey, execMarsEnc, execMarsDec, execMarsS, execMarsS0, execMarsS1,
      execMarsMask, execSalsaKey, execSalsaQr, execSalsaHash, execSalsaBlock, execSalsaStart, execSalsaXor, execTrivInit,
      execTrivClk, execTrivByte, execTrivXor, succeed, raiseCmdError] <;>
    (repeat' split) <;> exact ⟨_, rfl⟩

/-- A word that decodes runs its command. -/
theorem runCommand_of_decode (v : Word) (i : Instr) (s : State) (h : decode v = .ok i) : runCommand v s = exec i s := by
  simp only [runCommand, h]

/-- Every word answers a next state. -/
theorem runCommand_answers (v : Word) (s : State) : ∃ t, runCommand v s = next t := by
  unfold runCommand
  split
  · exact exec_answers _ _
  · exact ⟨_, rfl⟩

/-! ## SALSA_XOR -/

/-- The first half in one record: the window after the refill (R180). -/
theorem refillKs_eq (s : State) : refillKs s = s.setKs (if s.salsa.off = 0
    then Salsa.keystreamBlock s.salsa.sk s.salsa.nl s.salsa.bc else s.salsa.ks) := by
  unfold refillKs
  split <;> rfl

/-- The position inside a block (R180). -/
theorem advanceStream_inside (s : State) (h : s.salsa.off ≠ 63) :
    advanceStream s = s.setPosition s.salsa.bc (s.salsa.off + 1) s.salsa.sexh := if_neg h

/-- The position at the end of a block that is not the last (R180). -/
theorem advanceStream_next (s : State) (h : s.salsa.off = 63) (h' : s.salsa.bc ≠ BitVec.allOnes 64) :
    advanceStream s = s.setPosition (s.salsa.bc + 1) 0 s.salsa.sexh := by
  unfold advanceStream
  rw [if_pos h, if_neg h']

/-- The position at the end of the last block (R180). -/
theorem advanceStream_last (s : State) (h : s.salsa.off = 63) (h' : s.salsa.bc = BitVec.allOnes 64) :
    advanceStream s = s.setPosition s.salsa.bc 0 true := by
  unfold advanceStream
  rw [if_pos h, if_pos h']

/-- The position always moves by one `setPosition`. -/
theorem advanceStream_shape (s : State) : ∃ bc off exh, advanceStream s = s.setPosition bc off exh := by
  unfold advanceStream
  split
  · split <;> exact ⟨_, _, _, rfl⟩
  · exact ⟨_, _, _, rfl⟩

/-- SALSA_XOR with a stream open, its window and output byte named. -/
theorem execSalsaXor_open (s : State) (ks : Vector Word 16) (out : Word) (h : s.salsa.sstream = true)
    (h' : s.salsa.sexh = false)
    (hks : (if s.salsa.off = 0 then Salsa.keystreamBlock s.salsa.sk s.salsa.nl s.salsa.bc else s.salsa.ks) = ks)
    (hout : zext32 (messageByte s.salsa.sdin ^^^ blockByte ks s.salsa.off) = out) :
    execSalsaXor s = next ((advanceStream ((s.setKs ks).setSdout out)).setErr .ok) := by
  unfold execSalsaXor
  rw [if_neg (by simp [h]), if_neg (by simp [h']), refillKs_eq, hks]
  simp only [State.setKs_sdin, State.setKs_ks, State.setKs_off, hout, succeed]

/-- TRIV_XOR in *producing*, its clocked byte named. -/
theorem execTrivXor_producing (s : State) (c : TrivRegs × Byte) (h : s.triv.tstate = .producing)
    (hc : Triv.clockByte Config.trivZForm s.triv.regs = c) :
    execTrivXor s = next (((s.setTrivRegs c.1).setTdout (zext32 (messageByte s.triv.tdin ^^^ c.2))).setErr .ok) := by
  subst hc
  unfold execTrivXor
  rw [if_pos h]
  rfl

/-- TRIV_BYTE in *producing*, its clocked byte named. -/
theorem execTrivByte_producing (s : State) (c : TrivRegs × Byte) (h : s.triv.tstate = .producing)
    (hc : Triv.clockByte Config.trivZForm s.triv.regs = c) :
    execTrivByte s = next (((s.setTrivRegs c.1).setTdout (zext32 c.2)).setErr .ok) := by
  subst hc
  unfold execTrivByte
  rw [if_pos h]
  rfl

/-- TRIV_CLK in *producing*, its clock named. -/
theorem execTrivClk_producing (s : State) (c : TrivRegs × Bool) (h : s.triv.tstate = .producing)
    (hc : Triv.clock Config.trivZForm s.triv.regs = c) :
    execTrivClk s = next (((s.setTrivRegs c.1).setTdout (zext32 (BitVec.ofBool c.2))).setErr .ok) := by
  subst hc
  unfold execTrivClk
  rw [if_pos h]
  rfl

/-! ## What one engine's command can reach -/

/-- A MARS command can change the MARS engine and ERR (R254). -/
theorem exec_mars_shape (i : Instr) (s t : State) (hi : i.family = .mars) (h : exec i s = next t) :
    ∃ m e, t = { s with mars := m, err := e } := by
  cases i <;> simp [Instr.family] at hi
  case marsKey n =>
    simp only [exec, execMarsKey, succeed, raiseCmdError] at h
    generalize Mars.keySchedule _ _ = k at h
    split at h <;> (injection h with h; exact ⟨_, _, h.symm⟩)
  all_goals
    simp only [exec, execMarsEnc, execMarsDec, execMarsS, execMarsS0, execMarsS1, execMarsMask, succeed,
      raiseCmdError] at h
    try split at h
    all_goals
      injection h with h
      exact ⟨_, _, h.symm⟩

/-- A Salsa20 command can change the Salsa20 engine and ERR (R254). -/
theorem exec_salsa_shape (i : Instr) (s t : State) (hi : i.family = .salsa) (h : exec i s = next t) :
    ∃ m e, t = { s with salsa := m, err := e } := by
  cases i <;> simp [Instr.family] at hi
  case salsaXor =>
    simp only [exec, execSalsaXor, raiseCmdError, succeed] at h
    split at h
    · injection h with h; exact ⟨s.salsa, _, h.symm⟩
    · split at h
      · injection h with h; exact ⟨s.salsa, _, h.symm⟩
      · rw [refillKs_eq] at h
        generalize (if s.salsa.off = 0 then Salsa.keystreamBlock s.salsa.sk s.salsa.nl s.salsa.bc
          else s.salsa.ks) = ks at h
        obtain ⟨bc, off, exh, e⟩ := advanceStream_shape ((s.setKs ks).setSdout
          (zext32 (messageByte (s.setKs ks).salsa.sdin ^^^ blockByte (s.setKs ks).salsa.ks (s.setKs ks).salsa.off)))
        rw [e] at h
        injection h with h
        exact ⟨_, _, h.symm⟩
  all_goals
    simp only [exec, execSalsaKey, execSalsaQr, execSalsaHash, execSalsaBlock, execSalsaStart, succeed,
      raiseCmdError] at h
    try split at h
    all_goals
      injection h with h
      exact ⟨_, _, h.symm⟩

/-- A Trivium command can change the Trivium engine and ERR (R254). -/
theorem exec_triv_shape (i : Instr) (s t : State) (hi : i.family = .trivium) (h : exec i s = next t) :
    ∃ m e, t = { s with triv := m, err := e } := by
  cases i <;> simp [Instr.family] at hi
  case trivInit =>
    simp only [exec, execTrivInit, succeed] at h
    generalize Triv.clocks _ _ _ = r at h
    injection h with h
    exact ⟨_, _, h.symm⟩
  all_goals
    simp only [exec, execTrivClk, execTrivByte, execTrivXor, succeed, raiseCmdError] at h
    split at h
    all_goals
      injection h with h
      exact ⟨_, _, h.symm⟩

end Sys2Proof.Machine
end

