-- ==== Sys2Proof/Laws/Decode.lean ====
section
/-! SUPPORT. A command word by its three fields, and what each entry of the opcode map says. -/

namespace Sys2Proof

/-- A word is its three fields side by side (R80). -/
theorem word_eq_fields (v : Word) : v = (rsvField v ++ lenField v ++ opField v : BitVec 32) := by
  apply BitVec.eq_of_getLsbD_eq
  intro i hi
  simp only [rsvField, lenField, opField, BitVec.getLsbD_append, BitVec.getLsbD_extractLsb']
  rcases Nat.lt_or_ge i 8 with h | h
  · simp [h]
  · rcases Nat.lt_or_ge i 12 with h' | h'
    · simp [show ¬ i < 8 by omega, show i - 8 < 4 by omega, show 8 + (i - 8) = i by omega]
    · simp [show ¬ i < 8 by omega, show ¬ i - 8 < 4 by omega, show i - 8 - 4 < 20 by omega,
        show 12 + (i - 8 - 4) = i by omega]

/-- An entry of the opcode map is a well-formed command without LEN whose word is its opcode, and not MARS_KEY's (R85). -/
theorem opcodeMap_some (op : BitVec 8) (i : Instr) (h : opcodeMap.lookup op = some i) :
    i.wf = true ∧ i.rowMatch = op.setWidth 32 ∧ i.lenOf = 0 ∧ op ≠ 0x10 := by
  have all : ∀ op : BitVec 8, (match opcodeMap.lookup op with
      | some i => decide (i.wf = true ∧ i.rowMatch = op.setWidth 32 ∧ i.lenOf = 0 ∧ op ≠ 0x10)
      | none => true) = true := by decide +kernel
  have here := all op
  rw [h] at here
  exact of_decide_eq_true here

/-- The opcodes of the map are those outside R86's unassigned ranges, MARS_KEY's apart. -/
theorem opcodeMap_isSome (op : BitVec 8) :
    (opcodeMap.lookup op).isSome = decide (op ≠ 0x10 ∧ ¬ ((0x02 ≤ op.toNat ∧ op.toNat ≤ 0x0F) ∨
      (0x17 ≤ op.toNat ∧ op.toNat ≤ 0x1F) ∨ (0x26 ≤ op.toNat ∧ op.toNat ≤ 0x2F) ∨ 0x34 ≤ op.toNat)) := by
  revert op
  decide +kernel

end Sys2Proof
end

