-- ==== Sys2Proof/Laws/Words.lean ====
section
/-! SUPPORT. Facts about words, bytes and masks. -/

namespace Sys2Proof.Machine

/-- A register with no reserved bit is not changed by its mask. -/
theorem and_full_mask (x : Word) : x &&& 0xFFFFFFFF = x := by
  have ones : (0xFFFFFFFF : Word) = BitVec.allOnes 32 := rfl
  rw [ones, BitVec.and_allOnes]

/-- Masking twice is masking once. -/
theorem and_mask_and_mask (x m : Word) : x &&& m &&& m = x &&& m := by
  rw [BitVec.and_assoc, BitVec.and_self]

/-- The low byte of a word masked to its low byte. -/
theorem messageByte_zext32_masked (b : Byte) : messageByte (zext32 b &&& 0xFF) = b := by
  unfold messageByte byte zext32
  apply BitVec.eq_of_getLsbD_eq
  intro j hj
  have low : ∀ j < 8, (255#32).getLsbD j = true := by decide
  simp [hj, low j hj, show j < 32 by omega]

/-- A zero-extended byte fits a register whose bits 31:8 are reserved. -/
theorem zext32_masked (b : Byte) : zext32 b &&& 0xFF = b.setWidth 32 := by
  unfold zext32
  apply BitVec.eq_of_getLsbD_eq
  intro j hj
  have low : ∀ j < 32, (255#32).getLsbD j = decide (j < 8) := by decide
  have here : BitVec.getLsbD (255 : BitVec 32) j = decide (j < 8) := low j hj
  rw [BitVec.getLsbD_and, here]
  simp [BitVec.getLsbD_setWidth]
  intro _ h
  by_contra hc
  exact absurd (BitVec.getLsbD_of_ge b j (by omega)) (by simpa using h)

/-- A zero-extended byte has no reserved bit. -/
theorem zext32_byte_reserved (b : Byte) : zext32 b &&& 0xFFFFFF00 = 0 := by
  unfold zext32
  revert b
  decide +kernel

/-- A zero-extended bit has no reserved bit. -/
theorem zext32_bit_reserved (b : Bool) : zext32 (BitVec.ofBool b) &&& 0xFFFFFF00 = 0 := by
  cases b <;> decide

end Sys2Proof.Machine
end

