-- ==== Sys2Proof/Laws/Invariant.lean ====
section
/-! SUPPORT. Updates that keep the invariant because they leave its parts alone, and host writes. -/

namespace Sys2Proof.Machine

/-- The invariant speaks of the three engines alone. -/
theorem State.Inv.of_engines {s t : State} (h : s.Inv) (hm : t.mars = s.mars) (hs : t.salsa = s.salsa)
    (ht : t.triv = s.triv) : t.Inv :=
  ⟨hm ▸ h.mars, hs ▸ h.salsa, ht ▸ h.triv⟩

theorem State.Inv.setErr {s : State} (h : s.Inv) (e : ErrCode) : (s.setErr e).Inv := h.of_engines rfl rfl rfl

theorem State.Inv.respond {s : State} (h : s.Inv) (r : Option Response) : (s.respond r).Inv := h.of_engines rfl rfl rfl

theorem State.Inv.setMOut {s : State} (h : s.Inv) (v : Vector Word 4) : (s.setMOut v).Inv :=
  ⟨⟨h.mars.keyed, h.mars.unkeyed⟩, h.salsa, h.triv⟩

theorem State.Inv.setMRes {s : State} (h : s.Inv) (w : Word) : (s.setMRes w).Inv :=
  ⟨⟨h.mars.keyed, h.mars.unkeyed⟩, h.salsa, h.triv⟩

theorem State.Inv.setShout {s : State} (h : s.Inv) (v : Vector Word 16) : (s.setShout v).Inv :=
  ⟨h.mars, ⟨h.salsa.1, h.salsa.2, h.salsa.3, h.salsa.4, h.salsa.5, h.salsa.6⟩, h.triv⟩

/-- A host write keeps the invariant: reserved bits are cleared (R55). -/
theorem State.Inv.writeReg {s : State} (h : s.Inv) (r : Reg) (v : Word) : (writeReg r v s).Inv := by
  obtain ⟨hm, hs, ht⟩ := h
  have low8 : ∀ v : Word, v &&& 0xFF &&& 0xFFFFFF00 = 0 := by
    intro v
    rw [BitVec.and_assoc]
    simp
  have low16 : ∀ v : Word, v &&& 0xFFFF &&& 0xFFFF0000 = 0 := by
    intro v
    rw [BitVec.and_assoc]
    simp
  cases r
  case tiv i =>
    refine ⟨hm, hs, ⟨?_, ht.2, ht.3, ht.4, ht.5, ht.6⟩⟩
    simp only [Machine.writeReg, Vector.getElem_set, Reg.mask]
    split
    · rename_i h
      rw [if_pos (by ext; exact h)]
      exact low16 v
    · exact ht.1
  case tkey i =>
    refine ⟨hm, hs, ⟨ht.1, ?_, ht.3, ht.4, ht.5, ht.6⟩⟩
    simp only [Machine.writeReg, Vector.getElem_set, Reg.mask]
    split
    · rename_i h
      rw [if_pos (by ext; exact h)]
      exact low16 v
    · exact ht.2
  case tdin => exact ⟨hm, hs, ⟨ht.1, ht.2, low8 v, ht.4, ht.5, ht.6⟩⟩
  case sdin => exact ⟨hm, ⟨low8 v, hs.2, hs.3, hs.4, hs.5, hs.6⟩, ht⟩
  all_goals
    exact ⟨⟨hm.1, hm.2⟩, ⟨hs.1, hs.2, hs.3, hs.4, hs.5, hs.6⟩, ⟨ht.1, ht.2, ht.3, ht.4, ht.5, ht.6⟩⟩

end Sys2Proof.Machine
end

