-- ==== Sys2Proof/Laws/Loops.lean ====
section
/-! SUPPORT. Loops that update a vector in place, and loops undone by their reverse. -/

namespace Sys2Proof.Machine

/-- The vector an in-place pass sees when it comes to place `i`: the new words below `i`, the old ones from `i` up. -/
def inPlaceView {α : Type} {n : Nat} (u t : Vector α n) (i : Nat) : Vector α n :=
  .ofFn fun j : Fin n => if j.val < i then u[j.val] else t[j.val]

/-- An in-place pass with `i` increasing: word `i` of the result is computed from the new words below `i` and the old
words from `i` up. -/
theorem foldl_inPlace {α : Type} {n : Nat} (f : Fin n → Vector α n → α) (t : Vector α n) (i : Fin n) :
    let u := (List.finRange n).foldl (fun v j => v.set j.val (f j v)) t
    u[i.val] = f i (inPlaceView u t i.val) := by
  intro u
  let p : Nat → Vector α n := fun m => ((List.finRange n).take m).foldl (fun v j => v.set j.val (f j v)) t
  have hsucc : ∀ m (h : m < n), p (m + 1) = (p m).set m (f ⟨m, h⟩ (p m)) := by
    intro m h
    have hm : m < (List.finRange n).length := by simpa using h
    show ((List.finRange n).take (m + 1)).foldl _ t = _
    rw [List.take_succ_eq_append_getElem hm, List.foldl_append]
    simp only [List.getElem_finRange, List.foldl_cons, List.foldl_nil]
    rfl
  have hu : p n = u := by
    show ((List.finRange n).take n).foldl _ t = _
    rw [List.take_of_length_le (by simp)]
  have habove : ∀ m, m ≤ n → ∀ j (hj : j < n), m ≤ j → (p m)[j] = t[j] := by
    intro m
    induction m with
    | zero => intro _ j hj _; rfl
    | succ m ih =>
      intro hm j hj hle
      rw [hsucc m (by omega), Vector.getElem_set_ne (h := by omega), ih (by omega) j hj (by omega)]
  have hbelow : ∀ m, m ≤ n → ∀ j (hj : j < n), j < m → (p m)[j] = f ⟨j, hj⟩ (p j) := by
    intro m
    induction m with
    | zero => intro _ j hj h; omega
    | succ m ih =>
      intro hm j hj h
      rw [hsucc m (by omega)]
      by_cases e : j = m
      · subst e; rw [Vector.getElem_set_self]
      · rw [Vector.getElem_set_ne (h := by omega), ih (by omega) j hj (by omega)]
  have hview : p i.val = inPlaceView u t i.val := by
    apply Vector.ext
    intro j hj
    simp only [inPlaceView, Vector.getElem_ofFn]
    split
    · rename_i h
      rw [hbelow _ (by omega) j hj h]
      have := hbelow n (le_refl _) j hj hj
      simp only [hu] at this
      exact this.symm
    · rename_i h
      exact habove _ (by omega) j hj (by omega)
  have := hbelow n (le_refl _) i.val i.isLt i.isLt
  simp only [hu] at this
  rw [← hview]; exact this

/-- Below the place the pass has come to, it sees the new words. -/
theorem inPlaceView_below {α : Type} {n : Nat} (u t : Vector α n) (i j : Nat) (hj : j < n) (h : j < i) :
    (inPlaceView u t i)[j] = u[j] := by
  simp [inPlaceView, h]

/-- From the place the pass has come to, it sees the old words. -/
theorem inPlaceView_above {α : Type} {n : Nat} (u t : Vector α n) (i j : Nat) (hj : j < n) (h : i ≤ j) :
    (inPlaceView u t i)[j] = t[j] := by
  simp [inPlaceView, Nat.not_lt.2 h]

/-- A loop is undone by the loop of inverse rounds in reverse order. -/
theorem foldl_reverse_undo {α β : Type} (f g : β → α → β) (h : ∀ a x, g (f x a) a = x) (ls : List α) (x : β) :
    ls.reverse.foldl g (ls.foldl f x) = x := by
  induction ls generalizing x with
  | nil => rfl
  | cons a ls ih =>
    rw [List.foldl_cons, List.reverse_cons, List.foldl_append, ih]
    exact h a x

end Sys2Proof.Machine
end

