-- ==== Sys2Proof/Laws/PerInstr.lean ====
section
/-! SUPPORT. A statement of every command, constructor by constructor: its word lies in its own row of R85's map and in no
other, and carries its LEN field. -/

namespace Sys2Proof.Laws

/-- The word of a well-formed command selects its own row, `(v & mask) = match` (R85), and its bits 11:8 are its LEN
(R82). -/
def EncodesItsRow.Statement (i : Instr) : Prop :=
  i.wf = true → encode i &&& i.rowMask = i.rowMatch ∧ (lenField (encode i)).toNat = i.lenOf

theorem EncodesItsRow.nop : EncodesItsRow.Statement .nop := fun _ => by decide
theorem EncodesItsRow.srst : EncodesItsRow.Statement .srst := fun _ => by decide

theorem EncodesItsRow.marsKey (len : Nat) : EncodesItsRow.Statement (.marsKey len) := by
  intro h
  simp only [Instr.wf, decide_eq_true_eq] at h
  interval_cases len <;> decide

theorem EncodesItsRow.marsEnc : EncodesItsRow.Statement .marsEnc := fun _ => by decide
theorem EncodesItsRow.marsDec : EncodesItsRow.Statement .marsDec := fun _ => by decide
theorem EncodesItsRow.marsS : EncodesItsRow.Statement .marsS := fun _ => by decide
theorem EncodesItsRow.marsS0 : EncodesItsRow.Statement .marsS0 := fun _ => by decide
theorem EncodesItsRow.marsS1 : EncodesItsRow.Statement .marsS1 := fun _ => by decide
theorem EncodesItsRow.marsMask : EncodesItsRow.Statement .marsMask := fun _ => by decide
theorem EncodesItsRow.salsaKey : EncodesItsRow.Statement .salsaKey := fun _ => by decide
theorem EncodesItsRow.salsaQr : EncodesItsRow.Statement .salsaQr := fun _ => by decide
theorem EncodesItsRow.salsaHash : EncodesItsRow.Statement .salsaHash := fun _ => by decide
theorem EncodesItsRow.salsaBlock : EncodesItsRow.Statement .salsaBlock := fun _ => by decide
theorem EncodesItsRow.salsaStart : EncodesItsRow.Statement .salsaStart := fun _ => by decide
theorem EncodesItsRow.salsaXor : EncodesItsRow.Statement .salsaXor := fun _ => by decide
theorem EncodesItsRow.trivInit : EncodesItsRow.Statement .trivInit := fun _ => by decide
theorem EncodesItsRow.trivClk : EncodesItsRow.Statement .trivClk := fun _ => by decide
theorem EncodesItsRow.trivByte : EncodesItsRow.Statement .trivByte := fun _ => by decide
theorem EncodesItsRow.trivXor : EncodesItsRow.Statement .trivXor := fun _ => by decide

end Sys2Proof.Laws
end

