-- ==== Sys2Proof/Laws/Port.lean ====
section
/-! SUPPORT. The port: each register found at its own address, what each legal access answers, and sequences of accesses. -/

namespace Sys2Proof.Machine

open Host.Outcome (next)

/-- Every register is found at its own address (R52). -/
theorem regAt_addr (r : Reg) : regAt r.addr = some r := by
  cases r with
  | mkey i => revert i; decide +kernel
  | mIn i => revert i; decide +kernel
  | mOut i => revert i; decide +kernel
  | skey i => revert i; decide +kernel
  | snonce i => revert i; decide +kernel
  | sbctr i => revert i; decide +kernel
  | shin i => revert i; decide +kernel
  | shout i => revert i; decide +kernel
  | tiv i => revert i; decide +kernel
  | tkey i => revert i; decide +kernel
  | _ => decide +kernel

/-- A legal read answers the register's value (R54). -/
theorem serve_memRead (r : Reg) (s : State) :
    serve (.memRead r.addr) s = next (s.respond (some (.data (readReg r s)))) := by
  simp [serve, Access.memRead, Access.target, Access.wholeWord, Access.addr, regAt_addr, serveLegal]

/-- A legal write to a register other than CMD (R55). -/
theorem serve_memWrite (r : Reg) (v : Word) (s : State) (h : r ≠ .cmd) :
    serve (.memWrite r.addr v) s = next ((writeReg r v s).respond (some .done)) := by
  simp [serve, Access.memWrite, Access.target, Access.wholeWord, Access.addr, regAt_addr, serveLegal, h, respondDone]

/-- A write to CMD ends where its command ends (R58). -/
theorem serve_command (v : Word) (s t : State) (h : runCommand v s = next t) :
    serve (.memWrite 0x008 v) s = next (t.respond (some .done)) := by
  have cmd : regAt 8#12 = some .cmd := rfl
  simp [serve, Access.memWrite, Access.target, Access.wholeWord, Access.addr, cmd, serveLegal, respondDone, h]

/-- Every access answers a next state. -/
theorem serve_answers (a : Access) (s : State) : ∃ t, serve a s = next t := by
  unfold serve serveLegal
  split
  · exact ⟨_, rfl⟩
  · split
    · exact ⟨_, rfl⟩
    · split
      · obtain ⟨t, ht⟩ := runCommand_answers _ s
        rw [ht]
        exact ⟨_, rfl⟩
      · exact ⟨_, rfl⟩

/-- With the reset input released a step is the port's service of the oldest access (R62, R270). -/
theorem step_released (s : State) (pins : List Bool) (h : s.Released pins) :
    step s = serveNext { s with resetPin := pins } := by
  unfold step portStep
  rcases h with h | ⟨h, rfl⟩
  · rw [h]
  · rw [h]
    simp only [← h]

/-- One access at the head of a sequence. -/
theorem serveAll_cons (a : Access) (rest : List Access) (s t : State) (h : serve a s = next t) :
    serveAll (a :: rest) s = (serveAll rest t).map fun r => (t.response.toList ++ r.1, r.2) := by
  simp only [serveAll, h]

/-- A sequence of accesses cut in two. -/
theorem serveAll_append (a b : List Access) (s : State) :
    serveAll (a ++ b) s = (serveAll a s).bind fun r => (serveAll b r.2).map fun q => (r.1 ++ q.1, q.2) := by
  induction a generalizing s with
  | nil => simp [serveAll]
  | cons x a ih =>
    obtain ⟨t, ht⟩ := serve_answers x s
    rw [List.cons_append, serveAll_cons _ _ _ _ ht, serveAll_cons _ _ _ _ ht, ih]
    cases serveAll a t with
    | none => rfl
    | some r =>
      cases h : serveAll b r.2 with
      | none => simp [h]
      | some q => simp [h]

/-- The data of two answer lists in a row. -/
theorem readData_append (a b : List Response) : readData (a ++ b) = readData a ++ readData b := by
  induction a with
  | nil => rfl
  | cons x a ih => cases x <;> simp [readData, ih]

end Sys2Proof.Machine
end

