-- ==== Sys2Proof/Laws/Trivium.lean ====
section
/-! SUPPORT. The bits of a Trivium register after each primitive. -/

namespace Sys2Proof.Machine

/-- A bit after an assignment to logical position `p` (R210). -/
theorem setBit_getLsbD {n : Nat} (r : BitVec n) (p q : Nat) (b : Bool) :
    (Triv.setBit r p b).getLsbD q = if q = p - 1 ∧ q < n then b else r.getLsbD q := by
  have one : ((1#n) <<< (p - 1)).getLsbD q = decide (q = p - 1 ∧ q < n) := by
    rw [BitVec.getLsbD_shiftLeft]
    by_cases h : q < n
    · by_cases e : q = p - 1
      · subst e
        simp [h]
        omega
      · simp [h, e]
        intro h1 h2
        omega
    · simp [h]
  unfold Triv.setBit
  by_cases h : q = p - 1 ∧ q < n
  · rw [decide_eq_true h] at one
    rw [if_pos h]
    cases b
    · rw [if_neg (by simp), BitVec.getLsbD_and, BitVec.getLsbD_not, one]
      simp
    · rw [if_pos rfl, BitVec.getLsbD_or, one]
      simp
  · rw [decide_eq_false h] at one
    rw [if_neg h]
    cases b
    · rw [if_neg (by simp), BitVec.getLsbD_and, BitVec.getLsbD_not, one]
      simp
      intro hh
      exact BitVec.lt_of_getLsbD hh
    · rw [if_pos rfl, BitVec.getLsbD_or, one]
      simp

/-- A bit of a storage byte is a bit of the register (R37). -/
theorem storageByte_getLsbD {n : Nat} (r : BitVec n) (k m : Nat) (hm : m < 8) :
    (Triv.storageByte r k).getLsbD m = r.getLsbD (8 * k + 7 - m) := by
  unfold Triv.storageByte
  rw [BitVec.getLsbD_reverse, BitVec.getMsbD, BitVec.getLsbD_extractLsb', decide_eq_true hm,
    decide_eq_true (by omega), Bool.true_and, Bool.true_and]
  congr 1
  omega

/-- A bit of a shifted register (R202). -/
theorem shiftIn_getLsbD {n : Nat} (r : BitVec n) (f : Bool) (p : Nat) (hn : 0 < n) :
    (Triv.shiftIn r f).getLsbD p = if p = 0 then f else (decide (p < n) && r.getLsbD (p - 1)) := by
  unfold Triv.shiftIn
  rw [BitVec.getLsbD_or, BitVec.getLsbD_shiftLeft, BitVec.getLsbD_setWidth, BitVec.getLsbD_ofBool]
  by_cases h : p = 0
  · subst h
    simp [hn]
  · simp [h]

end Sys2Proof.Machine
end

