-- ==== Sys2Proof/Tests/Slice0.lean ====
section
/-! SUPPORT. The model's own tests. The expected results come from the spec: its encodings, the worked examples of its
rules and the vectors of 95_test_vectors.md, named in each comment. The witness theorems show for each statement with
hypotheses a state and operands that meet them. -/

set_option Elab.async false

namespace Sys2Proof.Tests

open Sys2Proof.Machine
open Host.Outcome (next)

/-- A command word from its fields, RSV (31:12), LEN (11:8) and OP (7:0), as R80 lays them out. -/
def commandWord (rsv : BitVec 20) (len : BitVec 4) (op : BitVec 8) : Word := rsv ++ len ++ op

/-- The state after reset with another MARS engine. -/
def withMars (m : MarsState) : State := { State.reset with mars := m }

/-- The state after reset with another Salsa20 engine. -/
def withSalsa (m : SalsaState) : State := { State.reset with salsa := m }

/-- The state after reset with another Trivium engine. -/
def withTriv (m : TriviumState) : State := { State.reset with triv := m }

/-- The state an outcome holds; none where the step stops. -/
def after : Host.Outcome State Fault Refusal → Option State
  | .next s => some s
  | .fault _ => none
  | .refused _ => none

/-- The stand-in table `S_T` of 95_test_vectors.md, which is not the MARS S-box. -/
def standIn : Sbox := fun i => 0x9E3779B9 * BitVec.ofNat 32 (i.toNat + 1)

/-! ## Well-formed commands: the one check is LEN's -/

theorem test_wf_refuses_len_16 : (Instr.marsKey 16).wf = false := by decide
theorem test_wf_accepts_len_0_and_15 : (Instr.marsKey 0).wf = true ∧ (Instr.marsKey 15).wf = true := by decide
theorem test_wf_refuses_program_past_the_array :
    (HostProgram.wrn .mkey 13 [0, 0]).wf = false ∧ (HostProgram.rdn .mIn 1 4).wf = false ∧
    (HostProgram.cmd (.marsKey 16)).wf = false := by decide

/-! ## Decoding, each word written from R80 and R85 -/

theorem test_decode_nop : decode (commandWord 0 0 0x00) = .ok .nop := by decide
theorem test_decode_srst : decode (commandWord 0 0 0x01) = .ok .srst := by decide
theorem test_decode_marsKey : decode (commandWord 0 14 0x10) = .ok (.marsKey 14) := by decide
theorem test_decode_marsKey_illegal_lengths :
    decode (commandWord 0 0 0x10) = .ok (.marsKey 0) ∧ decode (commandWord 0 15 0x10) = .ok (.marsKey 15) := by decide
theorem test_decode_marsEnc : decode (commandWord 0 0 0x11) = .ok .marsEnc := by decide
theorem test_decode_marsDec : decode (commandWord 0 0 0x12) = .ok .marsDec := by decide
theorem test_decode_marsS : decode (commandWord 0 0 0x13) = .ok .marsS := by decide
theorem test_decode_marsS0 : decode (commandWord 0 0 0x14) = .ok .marsS0 := by decide
theorem test_decode_marsS1 : decode (commandWord 0 0 0x15) = .ok .marsS1 := by decide
theorem test_decode_marsMask : decode (commandWord 0 0 0x16) = .ok .marsMask := by decide
theorem test_decode_salsaKey : decode (commandWord 0 0 0x20) = .ok .salsaKey := by decide
theorem test_decode_salsaQr : decode (commandWord 0 0 0x21) = .ok .salsaQr := by decide
theorem test_decode_salsaHash : decode (commandWord 0 0 0x22) = .ok .salsaHash := by decide
theorem test_decode_salsaBlock : decode (commandWord 0 0 0x23) = .ok .salsaBlock := by decide
theorem test_decode_salsaStart : decode (commandWord 0 0 0x24) = .ok .salsaStart := by decide
theorem test_decode_salsaXor : decode (commandWord 0 0 0x25) = .ok .salsaXor := by decide
theorem test_decode_trivInit : decode (commandWord 0 0 0x30) = .ok .trivInit := by decide
theorem test_decode_trivClk : decode (commandWord 0 0 0x31) = .ok .trivClk := by decide
theorem test_decode_trivByte : decode (commandWord 0 0 0x32) = .ok .trivByte := by decide
theorem test_decode_trivXor : decode (commandWord 0 0 0x33) = .ok .trivXor := by decide

/-- The two texts of the word: fields side by side and the hexadecimal of P2 (0x00000310) and V-C07 (0x80000011). -/
theorem test_commandWord_layout :
    commandWord 0 3 0x10 = 0x00000310 ∧ commandWord 0x80000 0 0x11 = 0x80000011 := by decide

/-- V-C03, V-C05, V-C06, V-C07, V-M36, V-E01. -/
theorem test_decode_illegal :
    decode 0x00000100 = .error .lenNotZero ∧ decode 0x00001001 = .error .reservedBits ∧
    decode 0x80000011 = .error .reservedBits ∧ decode 0x00000111 = .error .lenNotZero ∧
    decode 0x00001010 = .error .reservedBits ∧
    [0x02, 0x0F, 0x17, 0x1F, 0x26, 0x2F, 0x34, 0xFF].all (fun v => decode v = .error .unassignedOp) = true := by decide

theorem test_decodeTableWord :
    decodeTableWord 32 0xE10 = some (.marsKey 14) ∧ decodeTableWord 32 0x02 = none ∧
    decodeTableWord 32 (2 ^ 32 + 0x33) = some .trivXor := by decide

/-! ## The port -/

/-- V-B01, V-B02: ID and CMD. -/
theorem test_read_id_and_cmd :
    readReg .id State.reset = 0x424C5631 ∧ readReg .cmd State.reset = 0 := by decide

/-- V-B05, V-B06, V-T27: reserved bits are dropped by a write. -/
theorem test_write_drops_reserved_bits :
    readReg .sdin (writeReg .sdin 0x12345678 State.reset) = 0x78 ∧
    readReg (.tiv 2) (writeReg (.tiv 2) 0xAABBCCDD State.reset) = 0xCCDD ∧
    readReg .tdin (writeReg .tdin 0x1FF State.reset) = 0xFF := by decide

/-- V-B03, V-B04: a write to a read-only register does nothing. -/
theorem test_write_read_only :
    writeReg .status 0xFFFFFFFF State.reset = State.reset ∧
    writeReg (.mOut 0) 0x12345678 State.reset = State.reset := ⟨rfl, rfl⟩

/-- V-B07 to V-B11, V-B13, V-E04: bus errors, and V-B12's last MKEY. -/
theorem test_bus_errors :
    [Access.read 0x00C 4, .read 0x102 4, .write 0x100 1 1 0, .write 0x100 4 3 0, .read 0x30C 4, .read 0x31C 4,
      .read 0x328 4, .read 0xFFC 4, .read 0x138 4].all (fun a => a.target = none) = true ∧
    (Access.read 0x134 4).target = some (.mkey 13) := by decide
theorem test_bus_error_keeps_err (s : State) : serve (.read 0x00C 4) { s with err := .nokey } =
    next { s with err := .nokey, response := some (.busError 0x00C) } := rfl

/-- The hardware reset clears the core and lets the access wait (R270). -/
theorem test_hardware_reset :
    step { withMars { MarsState.reset with marg := 7 } with resetPin := [true], port := [.read 0x160 4] } =
      next { State.reset with port := [.read 0x160 4] } := rfl

/-- One step runs the word that `withFetchWord` placed: P2's first command, STATUS 0x00000300. -/
theorem test_step_runs_marsEnc_from_reset :
    step (State.reset.withFetchWord 32 0x11) = next { State.reset with err := .nokey, response := some .done } := rfl

/-! ## Control -/

/-- V-C02: NOP takes STATUS from 0x202 to 0x002. -/
theorem test_nop_clears_err :
    (after (exec .nop { withSalsa { SalsaState.reset with skeyed := true } with err := .keylen })).map statusWord =
      some 0x002 := by decide

/-- V-C05: SRST with bit 12 set is ILLEGAL and resets nothing. -/
theorem test_srst_with_reserved_bit (s : State) : runCommand 0x00001001 s = next { s with err := .illegal } := rfl

/-! ## MARS -/

/-- V-M04, V-M05, V-M08, V-M10, V-M12. -/
theorem test_mask : Mars.mask 0x000003ff = 0x7ffff9fc ∧ Mars.mask 0x000001ff = 0x7ffffc00 ∧
    Mars.mask 0x000ffc03 = 0x7fe7f800 ∧ Mars.mask 0x80000003 = 0x3ffffff8 ∧
    Mars.mask 0xf0000003 = 0x07fffff8 := by decide +kernel

/-- V-M19a to V-M19d. -/
theorem test_fixWord : Mars.fixWord 0 0 = 0x24a8d57b ∧ Mars.fixWord 1 5 = 0x6ba3276b ∧
    Mars.fixWord 0xfffffffe 0x1f = 0x9babe7b3 ∧ Mars.fixWord 0x12345678 3 = 0x1234567b := by decide +kernel

/-- V-M20b to V-M20d, under the stand-in table. -/
theorem test_E : Mars.E standIn 1 2 3 = (0x7951e6e4, 3, 0x01800000) ∧
    Mars.E standIn 0xffffffff 1 0xffffffff = (0x9e377d99, 0, 0x00000400) ∧
    Mars.E standIn 0x12345678 0x9abcdef0 0x0fedcba9 = (0x8f896471, 0x56789ab4, 0x1008dbf9) := by decide +kernel

/-- V-M22's schedule (key 14 × 42) and V-M25's two blocks, under the stand-in table. -/
theorem test_mars_block :
    let k := Mars.keySchedule standIn (List.replicate 14 42)
    (k[0], k[1], k[5], k[39]) = (0x4398cf74, 0xec054d3f, 0x1429cbd7, 0x2d1870d8) ∧
    Mars.encrypt standIn k ⟨2, 4, 24, 42⟩ = ⟨0x76bcf97e, 0x6afa68d5, 0x1e852b08, 0xb6de1d79⟩ ∧
    Mars.decrypt standIn k ⟨2, 4, 24, 42⟩ = ⟨0xa13b3511, 0x3540e80b, 0xd756fc13, 0xe1bdc36a⟩ := by decide +kernel

/-- V-M33 and V-M34: STATUS after MARS_KEY 14, and after MARS_KEY 15 on top of it. -/
theorem test_marsKey_status :
    (after (exec (.marsKey 14) State.reset)).map statusWord = some 0x0000E001 ∧
    ((after (exec (.marsKey 14) State.reset)).bind fun s => (after (exec (.marsKey 15) s)).map statusWord) =
      some 0x00000200 := by decide

/-- V-M15, V-M16, V-M18: the bits that a lookup ignores. -/
theorem test_marsS : (after (exec .marsS (withMars { MarsState.reset with marg := 0xFFFFFE02 }))).map (·.mars.mres) =
    some 0x84aa6c39 := rfl
theorem test_marsS0 : (after (exec .marsS0 (withMars { MarsState.reset with marg := 0x00000102 }))).map (·.mars.mres) =
    some 0x84aa6c39 := rfl
theorem test_marsS1 : (after (exec .marsS1 (withMars { MarsState.reset with marg := 0xFFFFFF0E }))).map (·.mars.mres) =
    some 0x0f59573e := rfl

/-- The source's example of R141. -/
theorem test_marsMask : (after (exec .marsMask (withMars { MarsState.reset with marg := 3 }))).map (·.mars.mres) =
    some 0x7FFFFFF8 := by decide +kernel

/-! ## Salsa20 -/

/-- The key bytes 0..31 of V-S10, as SKEY holds them. -/
def keyBytes : Vector Word 8 :=
  #v[0x03020100, 0x07060504, 0x0b0a0908, 0x0f0e0d0c, 0x13121110, 0x17161514, 0x1b1a1918, 0x1f1e1d1c]

/-- The input `e0` of V-S07 and V-S08. -/
def e0 : Vector Word 16 := #v[1, 0, 0, 0, 1, 0, 0, 0, 1, 0, 0, 0, 1, 0, 0, 0]

/-- V-S07 and V-S08. -/
theorem test_rounds :
    Salsa.rowRound e0 = #v[0x08008145, 0x00000080, 0x00010200, 0x20500000, 0x20100001, 0x00048044, 0x00000080, 0x00010000,
      0x00000001, 0x00002000, 0x80040000, 0x00000000, 0x00000001, 0x00000200, 0x00402000, 0x88000100] ∧
    Salsa.columnRound e0 = #v[0x10090288, 0, 0, 0, 0x00000101, 0, 0, 0, 0x00020401, 0, 0, 0, 0x40a04001, 0, 0, 0] := by
  decide +kernel

/-- V-S09's words are those of the input (1, 0, …, 0), not of its `e0` (assumption log 8). -/
theorem test_doubleRound_of_single_one :
    (Salsa.doubleRound ((Vector.replicate 16 0).set 0 1)).toList.take 8 =
      [0x8186a22d, 0x0040a284, 0x82479210, 0x06929051, 0x08000090, 0x02402200, 0x00004000, 0x00800000] := by
  decide +kernel

/-- V-S28: SALSA_QR writes four words of SHOUT and leaves the others. -/
theorem test_salsaQr : (after (exec .salsaQr (withSalsa { SalsaState.reset with
      shin := (Vector.replicate 16 0).set 0 1, shout := .replicate 16 9 }))).map (·.salsa.shout.toList.take 5) =
    some [0x08008145, 0x00000080, 0x00010200, 0x20500000, 9] := by decide +kernel

/-- V-S11: SALSA_BLOCK at counter 1, first and last word. -/
theorem test_salsaBlock : (after (exec .salsaBlock (withSalsa { SalsaState.reset with
      sk := keyBytes, skeyed := true, sbctr := #v[1, 0] }))).map (fun s => (s.salsa.shout[0], s.salsa.shout[15])) =
    some (0x29f880e0, 0xc8e8afa4) := by decide +kernel

/-- The example of R180: the first byte of the stream under key bytes 0..31 and nonce 0. -/
theorem test_salsaXor_first_byte : (after (exec .salsaXor (withSalsa { SalsaState.reset with
      sk := keyBytes, skeyed := true, sstream := true, sdin := 0x74 }))).map (fun s => (s.salsa.sdout, s.salsa.off)) =
    some (0xc1, 1) := by decide +kernel

/-- V-S24: the last byte of the last block sets SEXH and keeps the counter. -/
theorem test_salsaXor_exhausts : (after (exec .salsaXor (withSalsa { SalsaState.reset with
      skeyed := true, sstream := true, bc := BitVec.allOnes 64, off := 63 }))).map
      (fun s => (s.salsa.sexh, s.salsa.bc == BitVec.allOnes 64, s.salsa.off)) = some (true, true, 0) := by decide

/-- V-S26: SALSA_START on an exhausted stream opens it anew. -/
theorem test_salsaStart_reopens : (after (exec .salsaStart (withSalsa { SalsaState.reset with
      skeyed := true, sstream := true, sexh := true, bc := BitVec.allOnes 64, snonce := #v[5, 6] }))).map
      (fun s => (s.salsa.sexh, s.salsa.bc, s.salsa.nl)) = some (false, 0, #v[5, 6]) := by decide

/-- V-S23: SALSA_KEY closes an open stream. -/
theorem test_salsaKey_closes : (after (exec .salsaKey (withSalsa { SalsaState.reset with
      skey := keyBytes, skeyed := true, sstream := true, off := 5 }))).map
      (fun s => (s.salsa.sk == keyBytes, statusWord s, s.salsa.off)) = some (true, 0x002, 0) := by decide

/-! ## Trivium -/

/-- The 10 IV bytes 24 and the 10 key bytes 42 of V-T01, as TIV and TKEY hold them. -/
def trivEngine : TriviumState :=
  { TriviumState.reset with tiv := #v[0x18181818, 0x18181818, 0x1818], tkey := #v[0x2a2a2a2a, 0x2a2a2a2a, 0x2a2a] }

/-- V-T02, V-T03: the storage after the load. -/
theorem test_load :
    let r := Triv.load (trivBytes trivEngine.tiv) (trivBytes trivEngine.tkey)
    (List.range 12).map (Triv.storageByte r.r1) = List.replicate 10 0x18 ++ [0, 0] ∧
    (List.range 11).map (Triv.storageByte r.r2) = List.replicate 10 0x2a ++ [0] ∧
    (List.range 14).map (Triv.storageByte r.r3) = List.replicate 13 0 ++ [2] := by decide +kernel

/-- V-T11: one clock from the load of zeros. -/
theorem test_clock_from_zero_load :
    let c := Triv.clock .doc (Triv.load (.replicate 10 0) (.replicate 10 0))
    c.2 = true ∧ Triv.storageByte c.1.r1 0 = 0x80 ∧ c.1.r2 = 0 ∧ c.1.r3 = 0 := by decide +kernel

/-- V-T01, V-T04, V-T07: TRIV_INIT, then the first byte in either output form. -/
theorem test_trivInit : (after (exec .trivInit (withTriv trivEngine))).map (fun s =>
      ((List.range 3).map (Triv.storageByte s.triv.regs.r1), Triv.storageByte s.triv.regs.r3 13, statusWord s,
       (Triv.clockByte .doc s.triv.regs).2, (Triv.clockByte .estream s.triv.regs).2 ^^^ 0x74)) =
    some ([0xe9, 0x4c, 0xfa], 0xe6, 0x20, 0xbe, 0x36) := by decide +kernel

/-- The bits that one clock command leaves in TDOUT, from registers where every tap is read (R207, R221). -/
theorem test_trivClk : (after (exec .trivClk (withTriv { TriviumState.reset with
      tstate := .producing, regs := ⟨0, 0, 1#111 <<< 110⟩, tdout := 0xFF }))).map (·.triv.tdout) = some 1 := by
  decide +kernel

/-- V-T21, V-T22: before TRIV_INIT. -/
theorem test_triv_notinit :
    [Instr.trivClk, .trivByte, .trivXor].all
      (fun i => (after (exec i State.reset)).map statusWord = some 0x00000500) = true := by decide

/-- V-S19 to V-S22, V-E03: commands without their key or stream. -/
theorem test_nokey_nostream :
    (after (exec .salsaBlock State.reset)).map statusWord = some 0x300 ∧
    (after (exec .salsaStart State.reset)).map statusWord = some 0x300 ∧
    (after (exec .salsaXor State.reset)).map statusWord = some 0x400 ∧
    (after (exec .salsaXor (withSalsa { SalsaState.reset with skeyed := true }))).map statusWord = some 0x402 := by
  decide

/-! ## Witnesses of the statements' hypotheses -/

/-- DecodeOfEncodeIsTheCommand, EncodeOfDecodedIsTheWord, EachCommandRaisesItsOwnErrors (its `wf` and `mayRaise`). -/
theorem witness_wf_and_decodes : (Instr.marsKey 15).wf = true ∧ decode 0x00000F10 = .ok (.marsKey 15) ∧
    (Instr.marsKey 15).mayRaise .keylen = true ∧ Instr.salsaXor.mayRaise .exhausted = true := by decide

/-- IllegalWordSetsErrAndNothingElse: a word for each clause and both ends of each range, and the legal neighbours. -/
theorem witness_illegal_words :
    (0x80000011 : Word).extractLsb' 12 20 ≠ 0 ∧
    (((0x00000111 : Word).extractLsb' 0 8).toNat ≠ 0x10 ∧ (0x00000111 : Word).extractLsb' 8 4 ≠ 0) ∧
    [0x02, 0x0F, 0x17, 0x1F, 0x26, 0x2F, 0x34, 0xFF].all (fun v => (decode v).toOption = none) = true ∧
    [0x01, 0x10, 0x16, 0x20, 0x25, 0x30, 0x33].all (fun v => (decode v).toOption ≠ none) = true := by decide

/-- StepRunsTheDecodedCommand and StepServesTheOldestAccess: released with and without levels to come. -/
theorem witness_released :
    ({ State.reset with resetPin := [false, true], port := [.write 0x008 4 0xF 0x24] } : State).Released [true] ∧
    (State.reset.withFetchWord 32 0x24).Released [] ∧
    (State.reset.withFetchWord 32 0x24).port = .write 0x008 4 0xF 0x24 :: [] ∧ State.reset.port = [] ∧
    decode 0x24 = .ok .salsaStart := ⟨.inl rfl, .inr ⟨rfl, rfl⟩, rfl, rfl, by decide⟩

/-- IllegalAccessIsABusErrorAndChangesNothing, AddressMapIsAsGiven: the ends of each mapped range, and the offsets beside. -/
theorem witness_mapped :
    (∀ a ∈ [0x000, 0x008, 0x100, 0x134, 0x140, 0x164, 0x200, 0x22C, 0x240, 0x2C4, 0x300, 0x308, 0x310, 0x318, 0x320,
      0x324], Mapped a) ∧
    (∀ a ∈ [0x002, 0x00C, 0x0FC, 0x138, 0x13C, 0x168, 0x1FC, 0x230, 0x23C, 0x2C8, 0x2FC, 0x30C, 0x31C, 0x328, 0xFFC],
      ¬ Mapped a) ∧ (2 ≠ 4) ∧ (0x3#4 ≠ 0xF) := by
  unfold Mapped
  decide

/-- LegalWriteSetsTheRegister and OnlyCommandsWriteErr: a register of each kind, an access that is no command and its
service, and a command word's outcome. -/
theorem witness_legal_write :
    Reg.kind .sdin = .readWrite ∧ Reg.kind (.tkey 2) = .readWrite ∧ Reg.kind .mres = .readOnly ∧ (Reg.id ≠ .cmd) ∧
    (Access.write 0x2C0 4 0xF 5).target ≠ some .cmd ∧
    (∃ t, serve (.write 0x2C0 4 0xF 5) State.reset = next t) ∧ (∃ t, serve (.read 0x004 4) State.reset = next t) ∧
    runCommand 0x00 State.reset = next State.reset :=
  ⟨rfl, rfl, rfl, by decide, by decide, ⟨_, rfl⟩, ⟨_, rfl⟩, rfl⟩

/-- HostProgramsExpandToLegalAccesses: a program with every form, up to the ends of its arrays. -/
theorem witness_program : (HostProgram.seq (.wrn .mkey 12 [1, 2]) (.seq (.rep 2 (.rdn .shout 0 16))
    (.seq (.cmd (.marsKey 15)) (.seq (.wr .sdin 3) (.rd .sdout))))).wf = true := by decide

/-- SoftResetClearsEverything and HardwareResetIsSoftReset. -/
theorem witness_reset : exec .srst (withTriv trivEngine) = next State.reset ∧
    ({ withTriv trivEngine with resetPin := [true, false] } : State).resetPin = true :: [false] := ⟨rfl, rfl⟩

/-- SoftResetClearsEverything: a command that is not SRST from *uninitialized* to *uninitialized*, TRIV_INIT's next state,
and the reset input asserted. -/
theorem witness_soft_reset : Instr.nop ≠ .srst ∧ exec .nop State.reset = next State.reset ∧
    State.reset.triv.tstate = .uninitialized ∧ (∃ t, exec .trivInit State.reset = next t) :=
  ⟨by simp, rfl, rfl, exec_answers _ _⟩

/-- StatusFieldsAreAsGiven and LegalReadReturnsTheRegister: a state that meets the invariant, and a read of it. -/
theorem witness_status : State.reset.Inv ∧ ∃ t, serve (.read (Reg.addr .status) 4) State.reset = next t :=
  ⟨⟨⟨fun h => (by cases h), fun _ => ⟨rfl, rfl⟩⟩,
    ⟨rfl, rfl, fun _ => ⟨rfl, rfl⟩, fun _ => ⟨rfl, rfl, rfl, rfl, rfl⟩, fun h => (by cases h), fun h => absurd rfl h⟩,
    ⟨rfl, rfl, rfl, rfl, by decide, fun _ => rfl⟩⟩, _, rfl⟩

/-- EveryStepKeepsTheInvariant: after reset, with an access to serve. -/
theorem witness_invariant : ∃ t, ({ State.reset with port := [.write 0x2C0 4 0xF 0x12345678] } : State).Inv ∧
    step { State.reset with port := [.write 0x2C0 4 0xF 0x12345678] } = next t :=
  ⟨_, ⟨⟨fun h => (by cases h), fun _ => ⟨rfl, rfl⟩⟩,
    ⟨rfl, rfl, fun _ => ⟨rfl, rfl⟩, fun _ => ⟨rfl, rfl, rfl, rfl, rfl⟩, fun h => (by cases h), fun h => absurd rfl h⟩,
    ⟨rfl, rfl, rfl, rfl, by decide, fun _ => rfl⟩⟩, rfl⟩

/-- NopOnlyClearsErr: a word with OP = 0 that is not NOP, and R100's STATUS. -/
theorem witness_nop : (0x00000100 : Word).extractLsb' 0 8 = 0 ∧ (0x00000100 : Word).extractLsb' 8 24 ≠ 0 ∧
    (0x80000000 : Word).extractLsb' 0 8 = 0 ∧ (0x80000000 : Word).extractLsb' 8 24 ≠ 0 ∧
    statusWord { withSalsa { SalsaState.reset with skeyed := true } with err := .keylen } = 0x202 := by decide

/-- MarsKeyLatchesOrDiscards: both ends of the legal lengths, the lengths beside them, and two keys alike below `n`. -/
theorem witness_marsKey : 15 ≤ 15 ∧ (4 ≤ 4 ∧ 4 ≤ 14) ∧ (4 ≤ 14 ∧ 14 ≤ 14) ∧ (3 < 4 ∨ 14 < 3) ∧ (15 < 4 ∨ 14 < 15) ∧
    (∀ i : Fin 14, i.val < 4 → ((Vector.replicate 14 (0 : Word)).set 4 9)[i.val] = State.reset.mars.mkey[i.val]) := by
  decide

/-- MarsEncAndDecWriteMout and OnlyKeyAndResetChangeTheSchedule: with a schedule and with none. -/
theorem witness_mars_keyed : (withMars { MarsState.reset with mkeyed := true }).mars.mkeyed = true ∧
    State.reset.mars.mkeyed = false ∧ (∀ n, Instr.marsMask ≠ .marsKey n) ∧ Instr.marsMask ≠ .srst ∧
    Instr.marsMask ≠ .marsEnc ∧ Instr.marsMask ≠ .marsDec ∧
    ∃ t, exec .marsMask State.reset = next t := ⟨rfl, rfl, by simp, by simp, by simp, by simp, exec_answers _ _⟩

/-- MarsLookupsWriteMres: the three arguments of its examples. -/
theorem witness_marg (w : Word) : (withMars { MarsState.reset with marg := w }).mars.marg = w := rfl

/-- WorkingBufferHoldsKeyLengthZeros: the shortest and the longest key, with an index for each clause; a 14-word key has
none for the third. -/
theorem witness_working_buffer :
    (4 ≤ (List.replicate 4 (42 : Word)).length ∧ (List.replicate 4 (42 : Word)).length ≤ 14) ∧
    (4 ≤ (List.replicate 14 (42 : Word)).length ∧ (List.replicate 14 (42 : Word)).length ≤ 14) ∧
    (3 < (List.replicate 4 (42 : Word)).length ∧ 4 = (List.replicate 4 (42 : Word)).length ∧
      (List.replicate 4 (42 : Word)).length < 5) ∧ 14 = (List.replicate 14 (42 : Word)).length := by decide

/-- FixupChangesTheMultiplicationWords: an index for each disjunct of the words that stay. -/
theorem witness_fixup : (3 < 5 ∨ 35 < 3 ∨ 3 % 2 = 0) ∧ (37 < 5 ∨ 35 < 37 ∨ 37 % 2 = 0) ∧
    (6 < 5 ∨ 35 < 6 ∨ 6 % 2 = 0) := by decide

/-- MarsCommandsRoundTrip: at either end of the legal lengths the two commands answer. -/
theorem witness_mars_round_trip : ∃ s1 s2 u1 u2, exec (.marsKey 4) State.reset = next s1 ∧ exec .marsEnc s1 = next s2 ∧
    exec (.marsKey 14) State.reset = next u1 ∧ exec .marsEnc u1 = next u2 := by
  obtain ⟨s1, h1⟩ := exec_answers (.marsKey 4) State.reset
  obtain ⟨s2, h2⟩ := exec_answers .marsEnc s1
  obtain ⟨u1, h3⟩ := exec_answers (.marsKey 14) State.reset
  obtain ⟨u2, h4⟩ := exec_answers .marsEnc u1
  exact ⟨s1, s2, u1, u2, h1, h2, h3, h4⟩

/-- SalsaBlockAndStartNeedAKey, SalsaStreamIsSalsaEncrypt: with a key and a message, and with no key. -/
theorem witness_salsa_keyed : (withSalsa { SalsaState.reset with skeyed := true }).salsa.skeyed = true ∧
    State.reset.salsa.skeyed = false ∧ [0x74#8, 0x68].length < 2 ^ 70 ∧
    (∃ t, exec .salsaQr State.reset = next t) ∧
    ∃ t, exec .salsaStart (withSalsa { SalsaState.reset with skeyed := true }) = next t :=
  ⟨rfl, rfl, by decide, exec_answers _ _, exec_answers _ _⟩

/-- SalsaXorCiphersOneByte: each clause, with the position at both ends of a block and at the last. -/
theorem witness_salsaXor :
    State.reset.salsa.sstream = false ∧
    (let s := withSalsa { SalsaState.reset with sstream := true, sexh := true }
     s.salsa.sstream = true ∧ s.salsa.sexh = true) ∧
    (let s := withSalsa { SalsaState.reset with sstream := true }
     s.salsa.sstream = true ∧ s.salsa.sexh = false ∧ s.salsa.off ≠ 63 ∧ s.salsa.off.toNat / 4 < 16) ∧
    (let s := withSalsa { SalsaState.reset with sstream := true, off := 63 }
     s.salsa.sstream = true ∧ s.salsa.sexh = false ∧ s.salsa.off = 63 ∧ s.salsa.bc ≠ BitVec.allOnes 64) ∧
    (let s := withSalsa { SalsaState.reset with sstream := true, off := 63, bc := BitVec.allOnes 64 }
     s.salsa.sstream = true ∧ s.salsa.sexh = false ∧ s.salsa.off = 63 ∧ s.salsa.bc = BitVec.allOnes 64) := by decide

/-- SalsaXorCiphersOneByte: a state that meets the invariant, with a stream open. -/
theorem witness_open_stream : (withSalsa { SalsaState.reset with skeyed := true, sstream := true }).Inv ∧
    (withSalsa { SalsaState.reset with skeyed := true, sstream := true }).salsa.sstream = true :=
  ⟨⟨⟨fun h => (by cases h), fun _ => ⟨rfl, rfl⟩⟩,
    ⟨rfl, rfl, fun h => (by cases h), fun h => (by cases h), fun h => (by cases h), fun h => absurd rfl h⟩,
    ⟨rfl, rfl, rfl, rfl, by decide, fun _ => rfl⟩⟩, rfl⟩

/-- SalsaEncryptCiphersByteByByte and OtherCommandsLeaveTheStream. -/
theorem witness_salsa_others : 64 < (List.replicate 65 0x74#8).length ∧ Instr.salsaBlock ≠ .salsaKey ∧
    Instr.salsaBlock ≠ .salsaStart ∧ Instr.salsaBlock ≠ .salsaXor ∧ Instr.salsaBlock ≠ .srst ∧
    ∃ t, exec .salsaBlock State.reset = next t := ⟨by decide, by simp, by simp, by simp, by simp, exec_answers _ _⟩

/-- SalsaTestPortsWriteShout and RoundsAreFourQuarterRounds: an index of SHOUT that SALSA_QR leaves. -/
theorem witness_shout_index : 4 ≤ (4 : Fin 16).val ∧ 4 ≤ (15 : Fin 16).val := by decide

/-- ShiftMovesEveryBitOnePlace, ByteIsEightBitsFirstHighest and LoadIsAsGiven: the ends of each range at R1's length. -/
theorem witness_positions : 0 < 93 ∧ (1 ≤ 1 ∧ 93 ≤ 93) ∧ (2 ≤ 2 ∧ 2 ≤ 93) ∧ 8 * (10 + 1) < 93 ∧
    (6 < 7 ∧ 8 * 11 + 7 - 6 < 93) ∧ (0 < 8 ∧ 7 < 8) ∧ (9 < 10 ∧ 7 < 8) ∧ (81 ≤ 81 ∧ 93 ≤ 93) ∧ (1 ≤ 111 ∧ 111 ≤ 111) := by
  decide

/-- TriviumClockCommandsWriteTdout and EightClocksAreOneByte: *producing*, and the two states that are not. -/
theorem witness_producing : (withTriv { trivEngine with tstate := .producing }).triv.tstate = .producing ∧
    State.reset.triv.tstate ≠ .producing ∧ (withTriv { trivEngine with tstate := .initialized }).triv.tstate ≠ .producing ∧
    ∃ t, exec .trivByte (withTriv { trivEngine with tstate := .producing }) = next t :=
  ⟨rfl, by decide, by decide, exec_answers _ _⟩

/-- EnginesAreIndependent and CommandsOfDifferentEnginesCommute: a command of each engine, and two states alike in one. -/
theorem witness_engines : Instr.marsEnc.family = .mars ∧ Instr.salsaXor.family = .salsa ∧ Instr.trivClk.family = .trivium ∧
    Instr.marsEnc.family ≠ .control ∧ Instr.marsEnc.family ≠ Instr.trivClk.family ∧
    State.reset.mars = (withTriv trivEngine).mars ∧
    (∃ t, exec .marsEnc State.reset = next t) ∧ ∃ t, exec .marsEnc (withTriv trivEngine) = next t :=
  ⟨rfl, rfl, rfl, by decide, by decide, rfl, exec_answers _ _, exec_answers _ _⟩

/-- ErrorsChangeNothingButErr: an error of each kind. -/
theorem witness_errors : (after (exec .trivClk State.reset)).map (·.err) = some .notinit ∧
    (after (exec (.marsKey 3) State.reset)).map (·.err) = some .keylen ∧ ErrCode.notinit ≠ .ok ∧ ErrCode.keylen ≠ .ok ∧
    decode 0x00000002 = .error .unassignedOp := by
  decide

/-- CommandsChangeOnlyTheirResults: a register a command leaves, one it may write, and a staging register. -/
theorem witness_may_write : (Reg.mres ≠ .status) ∧ Instr.marsEnc.mayWrite .mres = false ∧
    Instr.salsaQr.mayWrite (.shout 3) = true ∧ Instr.salsaQr.mayWrite (.shout 4) = false ∧ Instr.marsEnc ≠ .srst ∧
    Reg.kind (.mkey 13) = .readWrite ∧ ∃ t, exec .marsEnc State.reset = next t :=
  ⟨by decide, rfl, rfl, rfl, by simp, rfl, exec_answers _ _⟩

end Sys2Proof.Tests
end

section
/-! The rotations of R12 are the library's `rotateLeft` and `rotateRight`, and rotations to the left add their amounts. -/

namespace Sys2Proof.Machine

@[simp] theorem rotl32_of_mod_eq_zero (x : Word) {n : Nat} (hn : n % 32 = 0) : rotl32 x n = x := by
  simp [rotl32, hn]

/-- The library's form has no case of its own for the amount 0: it is `x ||| (x >>> 32)` there. -/
theorem rotl32_eq_rotateLeft (x : Word) (n : Nat) : rotl32 x n = x.rotateLeft n := by
  rw [BitVec.rotateLeft_def]
  by_cases hn : n % 32 = 0
  · simp [hn, BitVec.ushiftRight_eq_zero]
  · simp [rotl32, hn]

/-- A rotation to the right by `k` is one to the left by `32 - k`; for `k = 0` that amount wraps to 0. -/
theorem rotr32_eq_rotateRight (x : Word) (n : Nat) : rotr32 x n = x.rotateRight n := by
  rw [BitVec.rotateRight_def, rotr32]
  by_cases hn : n % 32 = 0
  · simp [hn, BitVec.shiftLeft_eq_zero]
  · have hlt : 32 - n % 32 < 32 := by omega
    have hback : 32 - (32 - n % 32) = n % 32 := by omega
    rw [Nat.mod_eq_of_lt hlt, rotl32_eq_rotateLeft, BitVec.rotateLeft_def, Nat.mod_eq_of_lt hlt, hback, BitVec.or_comm]

/-- Bit `i` of a word rotated to the left comes from position `i - n`, counted around the word. -/
theorem getElem_rotl32 (x : Word) (n : Nat) {i : Nat} (hi : i < 32) :
    (rotl32 x n)[i] = x[(i + (32 - n % 32)) % 32] := by
  rw [rotl32_eq_rotateLeft, BitVec.getElem_rotateLeft]
  split <;> congr 1 <;> omega

theorem rotl32_rotl32 (x : Word) (m n : Nat) : rotl32 (rotl32 x m) n = rotl32 x (m + n) := by
  ext i hi
  simp only [getElem_rotl32]
  congr 1
  omega

@[simp] theorem rotr32_rotl32 (x : Word) (n : Nat) : rotr32 (rotl32 x n) n = x := by
  rw [rotr32, rotl32_rotl32, rotl32_of_mod_eq_zero]
  omega

@[simp] theorem rotl32_rotr32 (x : Word) (n : Nat) : rotl32 (rotr32 x n) n = x := by
  rw [rotr32, rotl32_rotl32, rotl32_of_mod_eq_zero]
  omega

/-- Settles O21: the library's rotations take their amount modulo the width, and a rotation there and back is one by a
multiple of 32. -/
theorem rotationsAreModulo32 : Obligations.RotationsAreModulo32 := by
  intro x n
  refine ⟨?left, ?right, ?zero, ?width, rotr32_rotl32 x n, rotl32_rotr32 x n⟩
  case left => rw [rotl32_eq_rotateLeft, BitVec.rotateLeft_mod_eq_rotateLeft]
  case right => rw [rotr32_eq_rotateRight, BitVec.rotateRight_mod_eq_rotateRight]
  case zero => exact rotl32_of_mod_eq_zero x (Nat.zero_mod 32)
  case width => exact rotl32_of_mod_eq_zero x (Nat.mod_self 32)

end Sys2Proof.Machine
end

section
/-! What one access and one step can do, and the invariant through each named update, each command and each
step. -/

namespace Sys2Proof.Machine

open Host.Outcome (next)

/-! ## What an access can do -/

/-- A read is answered and changes nothing else, whether it is legal or not (R54, R245). -/
theorem serve_read (addr : BitVec 12) (size : Nat) (s : State) :
    ∃ r, serve (.read addr size) s = next (s.respond r) := by
  unfold serve
  split <;> exact ⟨_, rfl⟩

theorem respondDone_eq_next {o : Host.Outcome State Fault Refusal} {t : State} (h : respondDone o = next t) :
    ∃ u, o = next u ∧ t = u.respond (some .done) := by
  cases o with
  | next u => exact ⟨u, rfl, (Host.Outcome.next.inj h).symm⟩
  | fault f => cases h
  | refused r => cases h

/-- All that an access can do: it only gets an answer, or it runs the word written to CMD, or it writes another
register (R54, R55, R245). -/
theorem serve_cases {a : Access} {s t : State} (h : serve a s = next t) :
    (∃ r, t = s.respond r) ∨
    (∃ v u, a.target = some .cmd ∧ runCommand v s = next u ∧ t = u.respond (some .done)) ∨
    (∃ r v, a.target = some r ∧ r ≠ .cmd ∧ t = (writeReg r v s).respond (some .done)) := by
  cases a with
  | read addr size =>
    obtain ⟨r, hr⟩ := serve_read addr size s
    exact .inl ⟨r, Host.Outcome.next.inj (h.symm.trans hr)⟩
  | write addr size strobes v =>
    unfold serve at h
    split at h
    · exact .inl ⟨_, (Host.Outcome.next.inj h).symm⟩
    · rename_i r htarget
      obtain ⟨u, hu, rfl⟩ := respondDone_eq_next h
      split at hu
      · rename_i hcmd
        exact .inr (.inl ⟨v, u, hcmd ▸ htarget, hu, rfl⟩)
      · rename_i hcmd
        exact .inr (.inr ⟨r, v, htarget, hcmd, by rw [Host.Outcome.next.inj hu]⟩)

/-- While the reset input is asserted a step resets the core and serves nothing (R270). -/
theorem step_asserted (s : State) (pins : List Bool) (h : s.resetPin = true :: pins) :
    step s = next ({ s with resetPin := pins }.resetCore.respond none) := by
  unfold step portStep
  rw [h]

/-- In every step the reset input is either asserted or released. -/
theorem asserted_or_released (s : State) : (∃ pins, s.resetPin = true :: pins) ∨ ∃ pins, s.Released pins := by
  rcases hpin : s.resetPin with _ | ⟨level, pins⟩
  · exact .inr ⟨[], .inr ⟨hpin, rfl⟩⟩
  · cases level with
    | true => exact .inl ⟨pins, rfl⟩
    | false => exact .inr ⟨pins, .inl hpin⟩

/-! ## The invariant after each named update -/

/-- Settles O19: every engine after reset holds nothing, so that no conditional clause of the invariant applies but
those of an engine without a key. -/
theorem resetMeetsTheInvariant : Obligations.ResetMeetsTheInvariant where
  mars := { keyed := nofun, unkeyed := fun _ => ⟨rfl, rfl⟩ }
  salsa :=
    { sdin_reserved := rfl, sdout_reserved := rfl, unkeyed := fun _ => ⟨rfl, rfl⟩,
      closed := fun _ => ⟨rfl, rfl, rfl, rfl, rfl⟩, exhausted := nofun, window := fun h => absurd rfl h }
  triv :=
    { tiv_reserved := rfl, tkey_reserved := rfl, tdin_reserved := rfl, tdout_reserved := rfl, settled := nofun,
      unconstructed := fun _ => rfl }

theorem State.Inv.resetCore (s : State) : s.resetCore.Inv := resetMeetsTheInvariant.of_engines rfl rfl rfl

namespace State.Inv

variable {s : State} (h : s.Inv)
include h

/-- A latched schedule comes with a key of its length (R135). -/
theorem latchMars_schedule {k : Vector Word 40} {key : List Word} (hk : k = Mars.keySchedule marsSbox key)
    (hmin : 4 ≤ key.length) (hmax : key.length ≤ 14) :
    (s.latchMars k true (BitVec.ofNat 4 key.length)).Inv := by
  have hlen : (BitVec.ofNat 4 key.length).toNat = key.length := by
    rw [BitVec.toNat_ofNat]; omega
  refine ⟨{ keyed := fun _ => ?_, unkeyed := nofun }, h.salsa, h.triv⟩
  rw [State.latchMars_mklen, hlen]
  exact ⟨hmin, hmax, key, rfl, hk⟩

theorem latchMars_none : (s.latchMars (.replicate 40 0) false 0).Inv :=
  ⟨⟨nofun, fun _ => ⟨rfl, rfl⟩⟩, h.salsa, h.triv⟩

theorem latchSalsa (key : Vector Word 8) : (s.latchSalsa key).Inv :=
  ⟨h.mars, { h.salsa with
    unkeyed := nofun, closed := fun _ => ⟨rfl, rfl, rfl, rfl, rfl⟩, exhausted := nofun,
    window := fun hoff => absurd rfl hoff }, h.triv⟩

/-- SALSA_START may leave the old window, for a position at offset 0 asks nothing of it (R179). -/
theorem openStream (hkey : s.salsa.skeyed = true) (nonce : Vector Word 2) : (s.openStream nonce).Inv :=
  ⟨h.mars, { h.salsa with
    unkeyed := fun hno => by simp [hkey] at hno
    closed := nofun, exhausted := nofun, window := fun hoff => absurd rfl hoff }, h.triv⟩

theorem setSdout (w : Word) (hw : w &&& 0xFFFFFF00 = 0) : (s.setSdout w).Inv :=
  ⟨h.mars, { h.salsa with sdout_reserved := hw }, h.triv⟩

theorem setTdout (w : Word) (hw : w &&& 0xFFFFFF00 = 0) : (s.setTdout w).Inv :=
  ⟨h.mars, h.salsa, { h.triv with tdout_reserved := hw }⟩

/-- In *producing* the registers may hold anything. -/
theorem setTrivRegs (hp : s.triv.tstate = .producing) (r : TrivRegs) : (s.setTrivRegs r).Inv :=
  ⟨h.mars, h.salsa, { h.triv with unconstructed := fun hu => by simp [hp] at hu }⟩

/-- TRIV_INIT sets registers and state together, so the registers written on the way need no clause (R220). -/
theorem setTrivRegs_setTState_producing (r : TrivRegs) : ((s.setTrivRegs r).setTState .producing).Inv :=
  ⟨h.mars, h.salsa, { h.triv with settled := nofun, unconstructed := nofun }⟩

/-! ## The two halves of SALSA_XOR -/

/-- The refill at offset 0 and the window inside a block are the same block, that of the stream's position (R180). -/
theorem window_after_refill :
    (if s.salsa.off = 0 then Salsa.keystreamBlock s.salsa.sk s.salsa.nl s.salsa.bc else s.salsa.ks) =
      Salsa.keystreamBlock s.salsa.sk s.salsa.nl s.salsa.bc := by
  split
  case isTrue => rfl
  case isFalse hoff => exact h.salsa.window hoff

theorem setKs (hopen : s.salsa.sstream = true) {ks : Vector Word 16}
    (hks : ks = Salsa.keystreamBlock s.salsa.sk s.salsa.nl s.salsa.bc) : (s.setKs ks).Inv :=
  ⟨h.mars, { h.salsa with
    closed := fun hno => by simp [hopen] at hno
    window := fun _ => hks }, h.triv⟩

/-- A position moved within an open stream: inside a block the window must be the block, and exhaustion stands at the
last counter value. -/
theorem setPosition (hopen : s.salsa.sstream = true) {bc : BitVec 64} {off : BitVec 6} {exh : Bool}
    (hexh : exh = true → bc = BitVec.allOnes 64 ∧ off = 0)
    (hwindow : off ≠ 0 → s.salsa.ks = Salsa.keystreamBlock s.salsa.sk s.salsa.nl bc) :
    (s.setPosition bc off exh).Inv :=
  ⟨h.mars, { h.salsa with
    closed := fun hno => by simp [hopen] at hno
    exhausted := hexh, window := hwindow }, h.triv⟩

/-- The window of a block serves all its bytes, and a new block begins at offset 0 (R180). -/
theorem advanceStream (hopen : s.salsa.sstream = true) (hfresh : s.salsa.sexh = false)
    (hks : s.salsa.ks = Salsa.keystreamBlock s.salsa.sk s.salsa.nl s.salsa.bc) : (advanceStream s).Inv := by
  by_cases hoff : s.salsa.off = 63
  · by_cases hbc : s.salsa.bc = BitVec.allOnes 64
    · rw [advanceStream_last s hoff hbc]
      exact h.setPosition hopen (fun _ => ⟨hbc, rfl⟩) (absurd rfl)
    · rw [advanceStream_next s hoff hbc]
      exact h.setPosition hopen (by simp [hfresh]) (absurd rfl)
  · rw [advanceStream_inside s hoff]
    exact h.setPosition hopen (by simp [hfresh]) (fun _ => hks)

/-! ## The invariant through a command -/

theorem of_succeed {t : State} (ht : succeed s = next t) : t.Inv :=
  Host.Outcome.next.inj ht ▸ h.setErr .ok

theorem of_raiseCmdError {code : ErrCode} {t : State} (ht : raiseCmdError code s = next t) : t.Inv :=
  Host.Outcome.next.inj ht ▸ h.setErr code

/-- A command that asks for a key, or for *producing*, and otherwise raises. -/
theorem of_guarded {c : Prop} [Decidable c] {u t : State} {code : ErrCode}
    (ht : (if c then succeed u else raiseCmdError code s) = next t) (hu : c → u.Inv) : t.Inv := by
  split at ht
  case isTrue hc => exact (hu hc).of_succeed ht
  case isFalse => exact h.of_raiseCmdError ht

theorem of_execMarsKey {n : Nat} {t : State} (ht : execMarsKey n s = next t) : t.Inv := by
  unfold execMarsKey at ht
  split at ht
  case isTrue => exact h.latchMars_none.of_raiseCmdError ht
  case isFalse hn =>
    have hlen : (marsKeyWords s.mars.mkey n).length = n := by
      simp only [marsKeyWords, List.length_take, Vector.length_toList]; omega
    have hlatched := h.latchMars_schedule (key := marsKeyWords s.mars.mkey n) rfl (by omega) (by omega)
    rw [hlen] at hlatched
    exact hlatched.of_succeed ht

theorem of_execSalsaXor {t : State} (ht : execSalsaXor s = next t) : t.Inv := by
  cases hopen : s.salsa.sstream with
  | false =>
    rw [execSalsaXor, if_pos hopen] at ht
    exact h.of_raiseCmdError ht
  | true =>
    cases hfresh : s.salsa.sexh with
    | true =>
      rw [execSalsaXor, if_neg (by simp [hopen]), if_pos hfresh] at ht
      exact h.of_raiseCmdError ht
    | false =>
      -- The window by a name of its own, so that no later defeq check computes the block.
      obtain ⟨ks, hks⟩ : ∃ ks, ks = Salsa.keystreamBlock s.salsa.sk s.salsa.nl s.salsa.bc := ⟨_, rfl⟩
      rw [execSalsaXor_open s ks _ hopen hfresh (h.window_after_refill.trans hks.symm) rfl] at ht
      obtain rfl := Host.Outcome.next.inj ht
      have hout (b : Byte) := (h.setKs hopen hks).setSdout _ (zext32_byte_reserved b)
      exact ((hout _).advanceStream hopen hfresh hks).setErr .ok

/-- Every command keeps the invariant. -/
theorem of_exec {i : Instr} {t : State} (ht : exec i s = next t) : t.Inv := by
  cases i with
  | nop => exact h.of_succeed ht
  | srst => exact (State.Inv.resetCore s).of_succeed ht
  | marsKey n => exact h.of_execMarsKey ht
  | marsEnc | marsDec => exact h.of_guarded ht fun _ => h.setMOut _
  | marsS | marsS0 | marsS1 | marsMask => exact (h.setMRes _).of_succeed ht
  | salsaKey => exact (h.latchSalsa _).of_succeed ht
  | salsaQr | salsaHash => exact (h.setShout _).of_succeed ht
  | salsaBlock => exact h.of_guarded ht fun _ => h.setShout _
  | salsaStart => exact h.of_guarded ht fun hkey => h.openStream hkey _
  | salsaXor => exact h.of_execSalsaXor ht
  | trivInit => exact (h.setTrivRegs_setTState_producing _).of_succeed ht
  | trivClk => exact h.of_guarded ht fun hp => (h.setTrivRegs hp _).setTdout _ (zext32_bit_reserved _)
  | trivByte | trivXor => exact h.of_guarded ht fun hp => (h.setTrivRegs hp _).setTdout _ (zext32_byte_reserved _)

/-! ## The invariant through a step -/

theorem of_runCommand {v : Word} {t : State} (ht : runCommand v s = next t) : t.Inv := by
  unfold runCommand at ht
  split at ht
  · exact h.of_exec ht
  · exact h.of_raiseCmdError ht

theorem of_serve {a : Access} {t : State} (ht : serve a s = next t) : t.Inv := by
  obtain ⟨r, rfl⟩ | ⟨v, u, -, hu, rfl⟩ | ⟨r, v, -, -, rfl⟩ := serve_cases ht
  · exact h.respond r
  · exact (h.of_runCommand hu).respond _
  · exact (h.writeReg r v).respond _

theorem of_serveNext {t : State} (ht : serveNext s = next t) : t.Inv := by
  unfold serveNext at ht
  split at ht
  · exact Host.Outcome.next.inj ht ▸ h.respond none
  · rename_i a rest _
    have hwaiting : State.Inv { s with port := rest } := h.of_engines rfl rfl rfl
    exact hwaiting.of_serve ht

theorem of_step {t : State} (ht : step s = next t) : t.Inv := by
  obtain ⟨pins, hpins⟩ | ⟨pins, hpins⟩ := asserted_or_released s
  · rw [step_asserted s pins hpins] at ht
    exact Host.Outcome.next.inj ht ▸ (State.Inv.resetCore _).respond none
  · rw [step_released s pins hpins] at ht
    have hreleased : State.Inv { s with resetPin := pins } := h.of_engines rfl rfl rfl
    exact hreleased.of_serveNext ht

end State.Inv

/-- Settles O20: an asserted reset ends in the reset engines, and any other step in an answer, a register write or a
command, each of which keeps the invariant. -/
theorem everyStepKeepsTheInvariant : Obligations.EveryStepKeepsTheInvariant := fun _ _ h ht => h.of_step ht

end Sys2Proof.Machine
end

section
/-! The step that runs a command word, what writes ERR, and what reads of STATUS and of the other registers show. -/

namespace Sys2Proof.Machine

open Host.Outcome (next)

/-! ## The step at a write to CMD -/

/-- Settles O6: the released step serves the write, the write runs its word, and the word is its command's. -/
theorem stepRunsTheDecodedCommand : Obligations.StepRunsTheDecodedCommand := by
  intro s pins v rest i hpins hport hdecode
  refine ⟨fun t ht => ?_, exec_answers i _⟩
  rw [← runCommand_of_decode v i _ hdecode] at ht
  calc step s = serveNext { s with resetPin := pins } := step_released s pins hpins
    _ = serve (.memWrite 0x008 v) { s with port := rest, resetPin := pins } := by simp only [serveNext, hport]; rfl
    _ = next (t.respond (some .done)) := serve_command v _ t ht

/-! ## What writes ERR (R39)

Each part of a command commutes with a write of ERR, and the command's end makes that write without effect (R240,
R242). -/

theorem succeed_setErr (s : State) (e : ErrCode) : succeed (s.setErr e) = succeed s := rfl

theorem raiseCmdError_setErr (code : ErrCode) (s : State) (e : ErrCode) :
    raiseCmdError code (s.setErr e) = raiseCmdError code s := rfl

theorem setSdout_setErr (s : State) (e : ErrCode) (w : Word) :
    (s.setErr e).setSdout w = (s.setSdout w).setErr e := rfl

theorem refillKs_setErr (s : State) (e : ErrCode) : refillKs (s.setErr e) = (refillKs s).setErr e := by
  simp only [refillKs_eq]
  rfl

theorem advanceStream_setErr (s : State) (e : ErrCode) : advanceStream (s.setErr e) = (advanceStream s).setErr e := by
  simp only [advanceStream, apply_ite (State.setErr · e)]
  rfl

theorem execSalsaXor_setErr (s : State) (e : ErrCode) : execSalsaXor (s.setErr e) = execSalsaXor s := by
  simp only [execSalsaXor, State.setErr_salsa, refillKs_setErr, setSdout_setErr, advanceStream_setErr, succeed_setErr,
    raiseCmdError_setErr]

/-- No command looks at ERR, and every one ends by writing it. -/
theorem exec_setErr (i : Instr) (s : State) (e : ErrCode) : exec i (s.setErr e) = exec i s := by
  cases i with
  | salsaXor => exact execSalsaXor_setErr s e
  | _ => rfl

@[simp] theorem writeReg_err (r : Reg) (v : Word) (s : State) : (writeReg r v s).err = s.err := by
  cases r <;> rfl

/-- Settles O14: an access that is no write to CMD is answered or writes a register, and ERR is none of those. -/
theorem onlyCommandsWriteErr : Obligations.OnlyCommandsWriteErr := by
  refine ⟨rfl, exec_setErr, ?access, ?read⟩
  case access =>
    intro a s t hcmd ht
    obtain ⟨r, rfl⟩ | ⟨v, u, hcmd', -⟩ | ⟨r, v, -, -, rfl⟩ := serve_cases ht
    · rfl
    · exact absurd hcmd' hcmd
    · exact writeReg_err r v s
  case read =>
    intro addr size s t ht
    obtain ⟨r, hr⟩ := serve_read addr size s
    rw [← Host.Outcome.next.inj (hr.symm.trans ht), State.respond_err]

/-! ## What reads show -/

/-- A value put at bit `k` of a word is the field at bit `k`. -/
theorem extractLsb'_zext32_shiftLeft {w : Nat} (x : BitVec w) (k : Nat) (h : k + w ≤ 32) :
    (zext32 x <<< k).extractLsb' k w = x := by
  apply BitVec.eq_of_getLsbD_eq
  intro i hi
  simp [zext32, hi, show k + i < 32 by omega]

/-- A value put beside a field leaves the field 0. -/
theorem extractLsb'_zext32_shiftLeft_of_disjoint {w : Nat} (x : BitVec w) (j k n : Nat)
    (h : j + w ≤ k ∨ k + n ≤ j) : (zext32 x <<< j).extractLsb' k n = 0#n := by
  apply BitVec.eq_of_getLsbD_eq
  intro i hi
  simp only [zext32, BitVec.getLsbD_extractLsb', BitVec.getLsbD_shiftLeft, BitVec.getLsbD_setWidth]
  rcases h with h | h
  · simp [x.getLsbD_of_ge (k + i - j) (by omega)]
  · simp [show k + i < j by omega]

/-- A field of what STATUS reads, where it has no reserved bit, is a field of the assembled word (R23), here with every
part at its place. -/
theorem readStatus_extractLsb' (s : State) (k n : Nat) (h : (0x0000FF3F : Word).extractLsb' k n = BitVec.allOnes n) :
    (readReg .status s).extractLsb' k n =
      (zext32 (BitVec.ofBool s.mars.mkeyed) <<< 0 ||| zext32 (BitVec.ofBool s.salsa.skeyed) <<< 1
        ||| zext32 (BitVec.ofBool s.salsa.sstream) <<< 2 ||| zext32 (BitVec.ofBool s.salsa.sexh) <<< 3
        ||| zext32 s.triv.tstate.code <<< 4 ||| zext32 s.err.code <<< 8
        ||| zext32 s.mars.mklen <<< 12).extractLsb' k n := by
  rw [BitVec.shiftLeft_zero, readReg, BitVec.extractLsb'_and]
  exact (congrArg _ h).trans BitVec.and_allOnes

theorem readStatus_reserved (s : State) (k n : Nat) (h : (0x0000FF3F : Word).extractLsb' k n = 0) :
    (readReg .status s).extractLsb' k n = 0 := by
  rw [readReg, BitVec.extractLsb'_and]
  exact (congrArg _ h).trans BitVec.and_zero

/-- The seven fields of STATUS that are not reserved, read back from their places (R23). -/
theorem readStatus_fields (s : State) :
    let v := readReg .status s
    v.extractLsb' 0 1 = BitVec.ofBool s.mars.mkeyed ∧ v.extractLsb' 1 1 = BitVec.ofBool s.salsa.skeyed ∧
    v.extractLsb' 2 1 = BitVec.ofBool s.salsa.sstream ∧ v.extractLsb' 3 1 = BitVec.ofBool s.salsa.sexh ∧
    v.extractLsb' 4 2 = s.triv.tstate.code ∧ v.extractLsb' 8 4 = s.err.code ∧ v.extractLsb' 12 4 = s.mars.mklen := by
  refine ⟨?_, ?_, ?_, ?_, ?_, ?_, ?_⟩
  all_goals
    rw [readStatus_extractLsb' s _ _ rfl]
    simp (disch := omega) only [BitVec.extractLsb'_or, extractLsb'_zext32_shiftLeft,
      extractLsb'_zext32_shiftLeft_of_disjoint, BitVec.or_zero, BitVec.zero_or]

theorem getLsbD_of_extractLsb'_one {v : Word} {k : Nat} {b : Bool} (h : v.extractLsb' k 1 = BitVec.ofBool b) :
    v.getLsbD k = b := by
  simpa using congrArg (BitVec.getLsbD · 0) h

theorem TState.code_eq_one {x : TState} (h : x.code = 1) : x = .initialized := by
  cases x with
  | initialized => rfl
  | uninitialized | producing => exact absurd h (by decide)

theorem TState.code_ne_three (x : TState) : x.code ≠ 3 := by
  cases x <;> decide

/-- Settles O12: each flag and code is a field at a place of its own, the reserved bits are those the mask clears, and
*initialized*, which would read 1, is what the invariant excludes. -/
theorem statusFieldsAreAsGiven : Obligations.StatusFieldsAreAsGiven := by
  intro s v
  obtain ⟨hmkeyed, hskeyed, hsstream, hsexh, htstate, herr, hmklen⟩ := readStatus_fields s
  refine ⟨getLsbD_of_extractLsb'_one hmkeyed, getLsbD_of_extractLsb'_one hskeyed, getLsbD_of_extractLsb'_one hsstream,
    getLsbD_of_extractLsb'_one hsexh, htstate.trans ?tstateCodes, readStatus_reserved s 6 2 rfl,
    herr.trans ?errCodes, hmklen, readStatus_reserved s 16 16 rfl, ?reset, fun _ => rfl, ?neverOne, ?neverThree⟩
  case tstateCodes => cases s.triv.tstate <;> rfl
  case errCodes => cases s.err <;> rfl
  case reset => rfl
  case neverOne => exact fun hinv hone => hinv.triv.settled (TState.code_eq_one (htstate.symm.trans hone))
  case neverThree => exact fun hthree => s.triv.tstate.code_ne_three (htstate.symm.trans hthree)

/-- Settles O15: a read shows the staging and result registers, and of the latched state only what STATUS has. -/
theorem noReadShowsLatchedState : Obligations.NoReadShowsLatchedState := by
  intro r s k sk nl bc off ks regs
  cases r <;> rfl

end Sys2Proof.Machine
end

section
/-! The address map, the service of legal and illegal accesses, and what a register write leaves. -/

namespace Sys2Proof.Machine

open Host.Outcome (next)

/-! ## The step at the port -/

theorem serveNext_nil {s : State} (h : s.port = []) : serveNext s = next (s.respond none) := by
  simp only [serveNext, h]

theorem serveNext_cons {s : State} {a : Access} {rest : List Access} (h : s.port = a :: rest) :
    serveNext s = serve a { s with port := rest } := by
  simp only [serveNext, h]

/-- Settles O7: a released step is the port's service, which takes the head of the list of accesses. -/
theorem stepServesTheOldestAccess : Obligations.StepServesTheOldestAccess := by
  intro s pins hpins
  rw [step_released s pins hpins]
  exact ⟨fun _ _ hport => serveNext_cons hport, fun hport => serveNext_nil hport⟩

/-! ## The address map (R52) -/

theorem elementAt_eq_none_iff {n base w : Nat} : elementAt n base w = none ↔ ¬(base ≤ w ∧ w < base + n) :=
  dite_eq_right_iff.trans (forall_congr' fun _ => iff_false_intro nofun)

/-- A word of the window is free when it is none of the nine single registers and in none of the ten arrays. -/
theorem regAtWord_eq_none_iff {w : Nat} (hw : w < 1024) : regAtWord w = none ↔ ¬ Mapped (4 * w) := by
  simp only [regAtWord, ite_eq_iff, reduceCtorEq, and_false, false_or, Option.or_eq_none_iff,
    Option.map_eq_none_iff, elementAt_eq_none_iff, Mapped]
  omega

theorem regAt_eq_none_iff (addr : BitVec 12) : regAt addr = none ↔ ¬ Mapped addr.toNat := by
  have hlt := addr.isLt
  by_cases halign : addr.toNat % 4 = 0
  · rw [regAt, if_pos halign, regAtWord_eq_none_iff (by omega), show 4 * (addr.toNat / 4) = addr.toNat by omega]
  · exact iff_of_true (if_neg halign) fun hmapped => halign hmapped.1

/-- What a mask clears reads 0 from every state (R54). -/
theorem readReg_reserved {r : Reg} {k n : Nat} (h : r.mask.extractLsb' k n = 0) (s : State) :
    (readReg r s).extractLsb' k n = 0 := by
  rw [readReg, BitVec.extractLsb'_and, h]
  exact BitVec.and_zero

/-- Settles O10: the registers are found at their own addresses, which are the offsets of R52, and the words without a
register are those outside its ranges. -/
theorem addressMapIsAsGiven : Obligations.AddressMapIsAsGiven := by
  refine ⟨rfl, rfl, rfl, fun i => regAt_addr (.mkey i), fun i => regAt_addr (.mIn i), fun i => regAt_addr (.mOut i),
    rfl, rfl, fun i => regAt_addr (.skey i), rfl, rfl, rfl, rfl, fun i => regAt_addr (.shin i),
    fun i => regAt_addr (.shout i), rfl, rfl, fun i => regAt_addr (.tiv i), fun i => regAt_addr (.tkey i), rfl, rfl,
    regAt_eq_none_iff, ?readOnly, ?writeOnly, fun s => ⟨?bytes, ?halves⟩⟩
  case readOnly => intro r; cases r <;> simp [Reg.kind]
  case writeOnly => intro r; cases r <;> simp [Reg.kind]
  case bytes => rintro r (rfl | rfl | rfl | rfl) <;> exact readReg_reserved rfl s
  case halves => rintro r (rfl | rfl) <;> exact readReg_reserved rfl s

/-! ## Legal and illegal accesses (R53, R245) -/

theorem Access.target_eq_none_iff (a : Access) :
    a.target = none ↔ ¬ a.wholeWord = true ∨ ¬ Mapped a.addr.toNat := by
  rw [Access.target, ← regAt_eq_none_iff]
  cases a.wholeWord <;> simp

theorem serve_of_target_none {a : Access} (h : a.target = none) (s : State) :
    serve a s = next (s.respond (some (.busError a.addr))) := by
  simp only [serve, h]

theorem serve_of_target_some {a : Access} {r : Reg} (h : a.target = some r) (s : State) :
    serve a s = serveLegal a r s := by
  simp only [serve, h]

/-- A whole-word access of a mapped address reaches its register. -/
theorem serve_mapped {a : Access} (hwhole : a.wholeWord = true) (hmapped : Mapped a.addr.toNat) (s : State) :
    ∃ r, serve a s = serveLegal a r s := by
  have hsome : a.target ≠ none := fun hnone =>
    ((Access.target_eq_none_iff a).1 hnone).elim (· hwhole) (· hmapped)
  obtain ⟨r, hr⟩ := Option.ne_none_iff_exists'.1 hsome
  exact ⟨r, serve_of_target_some hr s⟩

/-- Settles O9: the port's answer is an error exactly where the access has no target. -/
theorem illegalAccessIsABusErrorAndChangesNothing : Obligations.IllegalAccessIsABusErrorAndChangesNothing := by
  intro s addr size strobes v
  refine ⟨fun hillegal => ?read, fun hillegal => ?write, fun hmapped => ⟨?legalRead, ?legalWrite⟩⟩
  case read =>
    have hnone : (Access.read addr size).target = none := by
      rw [Access.target_eq_none_iff]
      simpa [Access.wholeWord, Access.addr, or_comm] using hillegal
    exact serve_of_target_none hnone s
  case write =>
    have hnone : (Access.write addr size strobes v).target = none := by
      rw [Access.target_eq_none_iff]
      simp only [Access.wholeWord, Access.addr, Bool.and_eq_true, decide_eq_true_eq]
      tauto
    exact serve_of_target_none hnone s
  case legalRead =>
    obtain ⟨r, hr⟩ := serve_mapped (a := .read addr 4) rfl hmapped s
    exact ⟨readReg r s, hr⟩
  case legalWrite =>
    obtain ⟨r, hr⟩ := serve_mapped (a := .write addr 4 0xF v) rfl hmapped s
    obtain ⟨t, ht⟩ := serve_answers (.write addr 4 0xF v) s
    obtain ⟨u, -, rfl⟩ := respondDone_eq_next (hr.symm.trans ht)
    exact ⟨_, ht, rfl⟩

/-! ## What a legal read returns (R54) -/

theorem readReg_of_full_mask {r : Reg} (h : r.mask = 0xFFFFFFFF) (s : State) : readReg r s = storedReg r s := by
  rw [readReg, h, and_full_mask]

@[simp] theorem readReg_respond (r : Reg) (s : State) (a : Option Response) :
    readReg r (s.respond a) = readReg r s := by
  cases r <;> rfl

/-- A mask with ones over a field keeps the value put there. -/
theorem zext32_shiftLeft_and {w : Nat} (x : BitVec w) (k : Nat) {m : Word}
    (h : m.extractLsb' k w = BitVec.allOnes w) : (zext32 x <<< k) &&& m = zext32 x <<< k := by
  apply BitVec.eq_of_getLsbD_eq
  intro i hi
  by_cases hfield : k ≤ i ∧ i < k + w
  · have hone := congrArg (BitVec.getLsbD · (i - k)) h
    simp only [BitVec.getLsbD_extractLsb', BitVec.getLsbD_allOnes, show i - k < w by omega, decide_true, Bool.true_and,
      Nat.add_sub_cancel' hfield.1] at hone
    rw [BitVec.getLsbD_and, hone, Bool.and_true]
  · have hzero : (zext32 x <<< k).getLsbD i = false := by
      rw [BitVec.getLsbD_shiftLeft, zext32, BitVec.getLsbD_setWidth]
      by_cases hk : i < k
      · simp [hk]
      · simp [x.getLsbD_of_ge (i - k) (by omega)]
    rw [BitVec.getLsbD_and, hzero, Bool.false_and]

/-- STATUS is assembled with its reserved bits 0 (R23), so that its mask clears nothing. -/
theorem readReg_status (s : State) : readReg .status s = statusWord s := by
  show statusWord s &&& 0x0000FF3F = statusWord s
  have hmkeyed : flagWord s.mars.mkeyed &&& 0x0000FF3F = flagWord s.mars.mkeyed := by
    rw [← BitVec.shiftLeft_zero (flagWord _)]
    exact zext32_shiftLeft_and _ 0 rfl
  simp only [statusWord, BitVec.and_or_distrib_right, hmkeyed]
  simp only [flagWord]
  rw [zext32_shiftLeft_and _ 1 rfl, zext32_shiftLeft_and _ 2 rfl, zext32_shiftLeft_and _ 3 rfl,
    zext32_shiftLeft_and _ 4 rfl, zext32_shiftLeft_and _ 8 rfl, zext32_shiftLeft_and _ 12 rfl]

/-- Settles O11: a register without reserved bits reads what it stores, a narrow one its low bits, and the answer is no
register. -/
theorem legalReadReturnsTheRegister : Obligations.LegalReadReturnsTheRegister := by
  intro s
  have full {r : Reg} (h : r.mask = 0xFFFFFFFF) := readReg_of_full_mask h s
  refine ⟨fun r => serve_memRead r s, full rfl, full rfl, readReg_status s, fun _ => full rfl,
    fun _ => ⟨full rfl, full rfl⟩, full rfl, full rfl, fun _ => full rfl, fun _ => ⟨full rfl, full rfl⟩,
    fun _ => ⟨full rfl, full rfl⟩, rfl, rfl, full rfl, full rfl, rfl, full rfl, full rfl, rfl, rfl, rfl, ?unchanged⟩
  intro r r' t ht
  obtain rfl := Host.Outcome.next.inj ((serve_memRead r s).symm.trans ht)
  exact readReg_respond r' s _

/-! ## What a register write leaves (R55, R56) -/

theorem writeReg_of_readOnly {r : Reg} (h : r.kind = .readOnly) (v : Word) (s : State) : writeReg r v s = s := by
  cases r with
  | id | status | mOut _ | mres | shout _ | sdout | tdout => rfl
  | _ => cases h

/-- A read-write register stores the value with its reserved bits cleared. -/
theorem storedReg_writeReg_self {r : Reg} (h : r.kind = .readWrite) (v : Word) (s : State) :
    storedReg r (writeReg r v s) = v &&& r.mask := by
  cases r with
  | id | status | cmd | mOut _ | mres | shout _ | sdout | tdout => cases h
  | marg | sdin | tdin => rfl
  | mkey i | mIn i | skey i | snonce i | sbctr i | shin i | tiv i | tkey i => exact Vector.getElem_set_self i.isLt

theorem readReg_writeReg_self {r : Reg} (h : r.kind = .readWrite) (v : Word) (s : State) :
    readReg r (writeReg r v s) = v &&& r.mask := by
  rw [readReg, storedReg_writeReg_self h, and_mask_and_mask]

/-- Another register is another field, or another element of the same array. -/
theorem readReg_writeReg_of_ne {r r' : Reg} (h : r' ≠ r) (v : Word) (s : State) :
    readReg r' (writeReg r v s) = readReg r' s := by
  refine congrArg (· &&& r'.mask) ?_
  cases r <;> cases r'
  case marg.marg | sdin.sdin | tdin.tdin => exact absurd rfl h
  case mkey.mkey i j | mIn.mIn i j | skey.skey i j | snonce.snonce i j | sbctr.sbctr i j | shin.shin i j | tiv.tiv i j
      | tkey.tkey i j =>
    exact Vector.getElem_set_ne i.isLt j.isLt fun hij => h (congrArg _ (Fin.ext hij.symm))
  all_goals rfl

theorem writeReg_writeReg (r : Reg) (v : Word) (s : State) : writeReg r v (writeReg r v s) = writeReg r v s := by
  cases r with
  | mkey i | mIn i | skey i | snonce i | sbctr i | shin i | tiv i | tkey i => simp only [writeReg, Vector.set_set]
  | _ => rfl

/-- The reserved bits of the read-write registers, in literals (R33, R35, R36). -/
theorem Reg.mask_of_readWrite {r : Reg} (h : r.kind = .readWrite) :
    r.mask = if r = .sdin ∨ r = .tdin then 0xFF else if r = .tiv 2 ∨ r = .tkey 2 then 0xFFFF else 0xFFFFFFFF := by
  cases r with
  | id | status | cmd | mOut _ | mres | shout _ | sdout | tdout => cases h
  | tiv i | tkey i => simp [Reg.mask]
  | _ => rfl

/-- Settles O13: a write sets one field or one element, to a value whose mask is idempotent; a write to CMD completes
with its command. -/
theorem legalWriteSetsTheRegister : Obligations.LegalWriteSetsTheRegister := by
  intro r v s
  refine ⟨serve_memWrite r v s, fun hrw => ?value, fun hro => writeReg_of_readOnly hro v s, writeReg_writeReg r v s,
    fun _ hne => readReg_writeReg_of_ne hne v s, ?latched, serve_command v s⟩
  case value =>
    rw [readReg_writeReg_self hrw, Reg.mask_of_readWrite hrw, apply_ite (v &&& ·), apply_ite (v &&& ·), and_full_mask]
  case latched =>
    cases r <;>
      exact ⟨rfl, rfl, rfl, rfl, rfl, rfl, rfl, rfl, rfl, rfl, rfl, rfl, rfl, rfl, rfl, rfl, rfl⟩

end Sys2Proof.Machine
end

section
/-! The decoder and the encoder undo each other, field by field, and what that says of the opcode map and of illegal
words. -/

namespace Sys2Proof

/-! ## What decodes to a command (R84, R86) -/

/-- The opcodes in no row of the map, as R86 lists them. -/
def UnassignedOp (op : BitVec 8) : Prop :=
  (0x02 ≤ op.toNat ∧ op.toNat ≤ 0x0F) ∨ (0x17 ≤ op.toNat ∧ op.toNat ≤ 0x1F) ∨
    (0x26 ≤ op.toNat ∧ op.toNat ≤ 0x2F) ∨ 0x34 ≤ op.toNat

theorem not_unassignedOp_marsKey : ¬ UnassignedOp 0x10 := by
  unfold UnassignedOp
  decide

theorem exists_lookup_opcodeMap_iff (op : BitVec 8) :
    (∃ i, opcodeMap.lookup op = some i) ↔ op ≠ 0x10 ∧ ¬ UnassignedOp op := by
  rw [← Option.isSome_iff_exists, opcodeMap_isSome, decide_eq_true_iff]
  rfl

/-- All that the decoder accepts: MARS_KEY with any LEN, and the opcodes of the map with LEN = 0. -/
theorem decode_eq_ok_iff (v : Word) (i : Instr) :
    decode v = .ok i ↔ rsvField v = 0 ∧
      (opField v = 0x10 ∧ i = .marsKey (lenField v).toNat ∨
        lenField v = 0 ∧ opcodeMap.lookup (opField v) = some i) := by
  unfold decode
  split_ifs with hrsv hop hlen
  · exact iff_of_false nofun fun h => hrsv h.1
  · have hkey : opcodeMap.lookup (opField v) ≠ some i := fun hrow =>
      ((exists_lookup_opcodeMap_iff _).1 ⟨i, hrow⟩).1 hop
    rw [Except.ok.injEq, eq_comm, and_iff_right (not_not.1 hrsv), and_iff_right hop]
    exact (or_iff_left fun h => hkey h.2).symm
  · exact iff_of_false nofun fun ⟨_, h⟩ => h.elim (fun h => hop h.1) (fun h => hlen h.1)
  · rw [and_iff_right (not_not.1 hrsv), and_iff_right (not_not.1 hlen), or_iff_right fun h => hop h.1]
    cases opcodeMap.lookup (opField v) <;> simp

/-- A word decodes to a command when none of its fields is at fault (R83, R86). -/
theorem exists_decode_iff (v : Word) :
    (∃ i, decode v = .ok i) ↔
      rsvField v = 0 ∧ (opField v = 0x10 ∨ lenField v = 0) ∧ ¬ UnassignedOp (opField v) := by
  simp only [decode_eq_ok_iff, exists_and_left, exists_or, exists_eq, and_true, exists_lookup_opcodeMap_iff]
  by_cases hop : opField v = 0x10
  · simp only [hop, true_or, true_and, not_unassignedOp_marsKey, not_false_eq_true]
  · simp only [hop, ne_eq, not_false_eq_true, false_or, true_and]

/-! ## The round trip (R80, R84, R85) -/

/-- A word with RSV = 0 is its opcode with LEN put at bit 8 (R80). -/
theorem word_eq_op_or_len {v : Word} (hrsv : rsvField v = 0) :
    v = (opField v).setWidth 32 ||| (BitVec.ofNat 32 (lenField v).toNat <<< 8) := by
  calc v = rsvField v ++ lenField v ++ opField v := word_eq_fields v
    _ = (opField v).setWidth 32 ||| (BitVec.ofNat 32 (lenField v).toNat <<< 8) := by
      rw [hrsv, BitVec.ofNat_toNat]
      apply BitVec.eq_of_getLsbD_eq
      intro i hi
      simp only [BitVec.getLsbD_append, BitVec.getLsbD_or, BitVec.getLsbD_setWidth, BitVec.getLsbD_shiftLeft]
      by_cases hlow : i < 8
      · simp [hlow, hi]
      · simpa [hlow, hi, (opField v).getLsbD_of_ge i (by omega), show i - 8 < 32 by omega] using BitVec.lt_of_getLsbD

theorem decode_encode_marsKey {len : Nat} (hlen : len ≤ 15) : decode (encode (.marsKey len)) = .ok (.marsKey len) := by
  interval_cases len <;> rfl

/-- Settles O2: a row without LEN is one word, and MARS_KEY's words are the sixteen of its LEN field. -/
theorem decodeOfEncodeIsTheCommand : Obligations.DecodeOfEncodeIsTheCommand := by
  intro i hwf
  cases i with
  | marsKey len => exact decode_encode_marsKey (of_decide_eq_true hwf)
  | _ => rfl

/-- Settles O3: the fields that the decoder read are the opcode and the LEN that the encoder puts back. -/
theorem encodeOfDecodedIsTheWord : Obligations.EncodeOfDecodedIsTheWord := by
  intro v i hdecode
  obtain ⟨hrsv, ⟨hop, rfl⟩ | ⟨hlen, hrow⟩⟩ := (decode_eq_ok_iff v i).1 hdecode
  case inl =>
    have hword := word_eq_op_or_len hrsv
    rw [hop] at hword
    exact ⟨decide_eq_true (Nat.le_of_lt_succ (lenField v).isLt), hword.symm⟩
  case inr =>
    obtain ⟨hwf, hmatch, hzero, -⟩ := opcodeMap_some (opField v) i hrow
    have hword := word_eq_op_or_len hrsv
    rw [hlen] at hword
    exact ⟨hwf, by rw [encode, hmatch, hzero]; exact hword.symm⟩

/-- The round trip as one equivalence. -/
theorem decode_eq_ok_iff_eq_encode {i : Instr} (hwf : i.wf = true) (v : Word) :
    decode v = .ok i ↔ v = encode i :=
  ⟨fun h => (encodeOfDecodedIsTheWord v i h).2.symm, fun h => h ▸ decodeOfEncodeIsTheCommand i hwf⟩

/-! ## The opcode map (R85) -/

/-- A row whose mask is full selects one word, its command's. -/
theorem decode_eq_ok_iff_full_mask {i : Instr} (hwf : i.wf = true) (v : Word) :
    decode v = .ok i ↔ v &&& 0xFFFFFFFF = encode i := by
  rw [Machine.and_full_mask, decode_eq_ok_iff_eq_encode hwf]

/-- MARS_KEY's mask leaves LEN free. -/
theorem decode_eq_ok_marsKey_iff (v : Word) (len : Nat) :
    decode v = .ok (.marsKey len) ↔ v &&& 0xFFFFF0FF = 0x00000010 ∧ len = (lenField v).toNat := by
  constructor
  case mp =>
    intro hdecode
    obtain ⟨hwf, rfl⟩ := encodeOfDecodedIsTheWord v _ hdecode
    obtain ⟨hmask, hlen⟩ := Laws.EncodesItsRow.marsKey len hwf
    exact ⟨hmask, hlen.symm⟩
  case mpr =>
    rintro ⟨hmask, rfl⟩
    have hfield (k n : Nat) (hones : (0xFFFFF0FF : Word).extractLsb' k n = BitVec.allOnes n) :
        v.extractLsb' k n = (0x00000010 : Word).extractLsb' k n := by
      rw [← hmask, BitVec.extractLsb'_and, hones, BitVec.and_allOnes]
    exact (decode_eq_ok_iff v _).2 ⟨hfield 12 20 rfl, .inl ⟨hfield 0 8 rfl, rfl⟩⟩

/-- Settles O4: every row but MARS_KEY's selects one word. -/
theorem decodeFollowsTheOpcodeMap : Obligations.DecodeFollowsTheOpcodeMap := by
  intro v
  have row {i : Instr} (hwf : i.wf = true) := decode_eq_ok_iff_full_mask hwf v
  exact ⟨row rfl, row rfl, decode_eq_ok_marsKey_iff v, row rfl, row rfl, row rfl, row rfl, row rfl, row rfl, row rfl,
    row rfl, row rfl, row rfl, row rfl, row rfl, row rfl, row rfl, row rfl, row rfl⟩

/-- Settles O1: each word by the decoder's own evaluation. -/
theorem sampleWordsDecode : Obligations.SampleWordsDecode :=
  ⟨rfl, rfl, rfl, rfl, rfl, rfl, rfl, rfl, rfl, rfl, rfl, rfl, rfl⟩

end Sys2Proof

/-! ## Illegal words (R83, R86) -/

namespace Sys2Proof.Machine

open Host.Outcome (next)

theorem runCommand_of_error {v : Word} {e : Illegal} (h : decode v = .error e) (s : State) :
    runCommand v s = next (s.setErr .illegal) := by
  simp only [runCommand, h, raiseCmdError_eq]

/-- Settles O5: the words with a fault in a field are those that do not decode. -/
theorem illegalWordSetsErrAndNothingElse : Obligations.IllegalWordSetsErrAndNothingElse := by
  intro v op illegal
  have hlegal : (∃ i, decode v = .ok i) ↔ ¬ illegal := by
    have hop : opField v = 0x10 ↔ op = 0x10 := BitVec.toNat_inj.symm
    have hfields : illegal ↔
      rsvField v ≠ 0 ∨ (op ≠ 0x10 ∧ lenField v ≠ 0) ∨ UnassignedOp (opField v) := Iff.rfl
    rw [exists_decode_iff, hfields, hop]
    tauto
  refine ⟨fun hillegal s => ?effect, fun hnot => ?complement⟩
  case effect =>
    cases hdecode : decode v with
    | ok i => exact absurd hillegal (hlegal.1 ⟨i, hdecode⟩)
    | error e => exact runCommand_of_error hdecode s
  case complement =>
    obtain ⟨i, hdecode⟩ := hlegal.2 hnot
    exact ⟨i, hdecode, fun s => runCommand_of_decode v i s hdecode⟩

end Sys2Proof.Machine
end

section
/-! The accesses that a host program stands for, and the registers they reach (R88, R89). -/

namespace Sys2Proof.Machine

/-! ## The forms written out -/

theorem writesFrom_eq_map (r : RegArray) (i : Nat) (vs : List Word) :
    writesFrom r i vs = (vs.zipIdx i).map fun p => .memWrite (r.addr p.2) p.1 := by
  induction vs generalizing i with
  | nil => rfl
  | cons v vs ih => rw [writesFrom, ih, List.zipIdx_cons, List.map_cons]

theorem readsFrom_eq_map (r : RegArray) (i n : Nat) :
    readsFrom r i n = (List.range' i n).map fun j => .memRead (r.addr j) := by
  induction n generalizing i with
  | zero => rfl
  | succ n ih => rw [readsFrom, ih, List.range'_succ, List.map_cons]

theorem copies_eq_flatten (accesses : List Access) (n : Nat) :
    copies accesses n = (List.replicate n accesses).flatten := by
  induction n with
  | zero => rfl
  | succ n ih => rw [copies, ih, List.replicate_succ, List.flatten_cons]

/-! ## The registers reached -/

/-- An element of an array is a register, at the element's address (R52). -/
theorem RegArray.exists_reg_addr {r : RegArray} {i : Nat} (h : i < r.place.2) : ∃ q : Reg, q.addr = r.addr i := by
  cases r with
  | mkey => exact ⟨.mkey ⟨i, h⟩, rfl⟩
  | mIn => exact ⟨.mIn ⟨i, h⟩, rfl⟩
  | mOut => exact ⟨.mOut ⟨i, h⟩, rfl⟩
  | skey => exact ⟨.skey ⟨i, h⟩, rfl⟩
  | snonce => exact ⟨.snonce ⟨i, h⟩, rfl⟩
  | sbctr => exact ⟨.sbctr ⟨i, h⟩, rfl⟩
  | shin => exact ⟨.shin ⟨i, h⟩, rfl⟩
  | shout => exact ⟨.shout ⟨i, h⟩, rfl⟩
  | tiv => exact ⟨.tiv ⟨i, h⟩, rfl⟩
  | tkey => exact ⟨.tkey ⟨i, h⟩, rfl⟩

/-- A program's transfer at a register's address is legal (R53). -/
theorem target_memRead_ne_none (q : Reg) : (Access.memRead q.addr).target ≠ none := fun hnone =>
  Option.some_ne_none q ((regAt_addr q).symm.trans hnone)

theorem target_memWrite_ne_none (q : Reg) (v : Word) : (Access.memWrite q.addr v).target ≠ none := fun hnone =>
  Option.some_ne_none q ((regAt_addr q).symm.trans hnone)

/-- Every access of a well-formed program reaches a register. -/
theorem HostProgram.target_ne_none_of_mem_expand {p : HostProgram} (hwf : p.wf = true) {a : Access}
    (ha : a ∈ p.expand) : a.target ≠ none := by
  induction p with
  | wr r v => exact List.mem_singleton.1 ha ▸ target_memWrite_ne_none r v
  | rd r => exact List.mem_singleton.1 ha ▸ target_memRead_ne_none r
  | cmd i => exact List.mem_singleton.1 ha ▸ target_memWrite_ne_none .cmd (encode i)
  | wrn r i vs =>
    have hrange : i + vs.length ≤ r.place.2 := of_decide_eq_true hwf
    rw [expand, writesFrom_eq_map] at ha
    obtain ⟨⟨v, j⟩, hj, rfl⟩ := List.mem_map.1 ha
    obtain ⟨-, hlt, -⟩ := List.mem_zipIdx hj
    obtain ⟨q, hq⟩ := r.exists_reg_addr (i := j) (by omega)
    exact hq ▸ target_memWrite_ne_none q v
  | rdn r i n =>
    have hrange : i + n ≤ r.place.2 := of_decide_eq_true hwf
    rw [expand, readsFrom_eq_map] at ha
    obtain ⟨j, hj, rfl⟩ := List.mem_map.1 ha
    obtain ⟨-, hlt⟩ := List.mem_range'_1.1 hj
    obtain ⟨q, hq⟩ := r.exists_reg_addr (i := j) (by omega)
    exact hq ▸ target_memRead_ne_none q
  | rep n body ih =>
    rw [expand, copies_eq_flatten] at ha
    obtain ⟨accesses, hcopy, hmem⟩ := List.mem_flatten.1 ha
    exact ih hwf (List.eq_of_mem_replicate hcopy ▸ hmem)
  | seq first rest ihfirst ihrest =>
    obtain ⟨hfirst, hrest⟩ := Bool.and_eq_true_iff.1 hwf
    exact (List.mem_append.1 ha).elim (ihfirst hfirst) (ihrest hrest)

/-- Settles O16: each form is its list of whole-word transfers, and an array's elements are registers. -/
theorem hostProgramsExpandToLegalAccesses : Obligations.HostProgramsExpandToLegalAccesses :=
  ⟨fun _ => ⟨rfl, rfl⟩, fun _ _ => rfl, fun _ => rfl, writesFrom_eq_map, readsFrom_eq_map, fun _ => rfl,
    fun _ => ⟨rfl, rfl⟩, fun _ => rfl, fun _ => ⟨rfl, rfl⟩, fun _ => ⟨rfl, rfl⟩, fun _ => ⟨rfl, rfl⟩,
    fun n p => copies_eq_flatten p.expand n, fun _ hwf _ => HostProgram.target_ne_none_of_mem_expand hwf⟩

end Sys2Proof.Machine
end

section
/-! The control commands: NOP writes ERR alone, and SRST is the one command back to the reset state. -/

namespace Sys2Proof.Machine

open Host.Outcome (next)

/-! ## NOP (R100) -/

theorem exec_nop (s : State) : exec .nop s = next (s.setErr .ok) := rfl

/-- The one word with OP = 0 that decodes is NOP's (R85). -/
theorem eq_zero_of_decode_of_opField_zero {v : Word} {i : Instr} (hop : opField v = 0) (h : decode v = .ok i) :
    v = 0 := by
  obtain ⟨-, ⟨hkey, -⟩ | ⟨-, hrow⟩⟩ := (decode_eq_ok_iff v i).1 h
  · exact absurd (hop.symm.trans hkey) (by decide)
  · rw [hop] at hrow
    obtain rfl : Instr.nop = i := Option.some.inj hrow
    exact (encodeOfDecodedIsTheWord v .nop h).2.symm

/-- ERR is a field of STATUS at bits 11:8, and a write of it leaves the other fields (R23). -/
theorem statusWord_setErr (s : State) (e : ErrCode) :
    statusWord (s.setErr e) = (statusWord s &&& (0xFFFFF0FF : Word)) ||| (zext32 e.code <<< 8) := by
  have hmkeyed := zext32_shiftLeft_and (m := 0xFFFFF0FF) (BitVec.ofBool s.mars.mkeyed) 0 rfl
  rw [BitVec.shiftLeft_zero] at hmkeyed
  have herr : (zext32 s.err.code <<< 8) &&& (0xFFFFF0FF : Word) = 0#32 := by
    cases s.err <;> rfl
  simp only [statusWord, flagWord, State.setErr_err, State.setErr_mars, State.setErr_salsa, State.setErr_triv,
    BitVec.and_or_distrib_right, hmkeyed, herr, BitVec.or_zero]
  rw [zext32_shiftLeft_and _ 1 rfl, zext32_shiftLeft_and _ 2 rfl, zext32_shiftLeft_and _ 3 rfl,
    zext32_shiftLeft_and _ 4 rfl, zext32_shiftLeft_and _ 12 rfl]
  ac_rfl

/-- Settles O22: a word with OP = 0 that decodes is all zeros, and the old ERR is masked out of STATUS. -/
theorem nopOnlyClearsErr : Obligations.NopOnlyClearsErr := by
  refine ⟨rfl, exec_nop, ?illegal, ?status⟩
  case illegal =>
    intro v s hop hrest
    cases hdecode : decode v with
    | ok i =>
      obtain rfl := eq_zero_of_decode_of_opField_zero hop hdecode
      exact absurd rfl hrest
    | error e => exact runCommand_of_error hdecode s
  case status =>
    intro s t hstatus ht
    obtain rfl := Host.Outcome.next.inj ((exec_nop s).symm.trans ht)
    rw [statusWord_setErr, hstatus]
    rfl

/-! ## What a command does to TSTATE (R38, R220) -/

theorem eq_setErr_of_succeed {s t : State} (h : succeed s = next t) : t = s.setErr .ok :=
  (Host.Outcome.next.inj h).symm

/-- A command that clocks in *producing*, and otherwise raises, keeps TSTATE. -/
theorem tstate_of_guarded {c : Prop} [Decidable c] {s u t : State} {code : ErrCode}
    (h : (if c then succeed u else raiseCmdError code s) = next t) (hu : u.triv.tstate = s.triv.tstate) :
    t.triv.tstate = s.triv.tstate := by
  split at h
  · exact eq_setErr_of_succeed h ▸ hu
  · exact Host.Outcome.next.inj h ▸ rfl

theorem exec_trivInit_tstate {s t : State} (h : exec .trivInit s = next t) : t.triv.tstate = .producing := by
  rw [eq_setErr_of_succeed h, State.setErr_triv, State.setTState_tstate]

/-- Every command but SRST leaves TSTATE or ends in *producing*. -/
theorem exec_tstate {i : Instr} {s t : State} (hi : i ≠ .srst) (h : exec i s = next t) :
    t.triv.tstate = s.triv.tstate ∨ t.triv.tstate = .producing := by
  cases i with
  | srst => exact absurd rfl hi
  | nop => exact .inl (by rw [eq_setErr_of_succeed h, State.setErr_triv])
  | marsKey _ | marsEnc | marsDec | marsS | marsS0 | marsS1 | marsMask =>
    obtain ⟨_, _, rfl⟩ := exec_mars_shape _ s t rfl h
    exact .inl rfl
  | salsaKey | salsaQr | salsaHash | salsaBlock | salsaStart | salsaXor =>
    obtain ⟨_, _, rfl⟩ := exec_salsa_shape _ s t rfl h
    exact .inl rfl
  | trivInit => exact .inr (exec_trivInit_tstate h)
  | trivClk | trivByte | trivXor => exact .inl (tstate_of_guarded h rfl)

/-! ## SRST (R43, R101) -/

theorem exec_srst (s : State) : exec .srst s = next s.resetCore := rfl

/-- After a reset every register but ID holds 0 (R43). -/
theorem storedReg_resetCore {r : Reg} (hr : r ≠ .id) (s : State) : storedReg r s.resetCore = 0 := by
  cases r with
  | id => exact absurd rfl hr
  | status =>
    -- STATUS does not look at the port, so the closed state stands for every one and evaluates.
    change statusWord State.reset = 0
    rfl
  | cmd | marg | mres | sdin | sdout | tdin | tdout => rfl
  | mkey i | mIn i | mOut i | skey i | snonce i | sbctr i | shin i | shout i | tiv i | tkey i =>
    exact Vector.getElem_replicate i.isLt

theorem readReg_resetCore {r : Reg} (hr : r ≠ .id) (s : State) : readReg r s.resetCore = 0 := by
  rw [readReg, storedReg_resetCore hr]
  exact BitVec.zero_and

/-- Settles O17: SRST's next state is the reset core, which the reset input leaves too, and TSTATE moves back to
*uninitialized* under no other command. -/
theorem softResetClearsEverything : Obligations.SoftResetClearsEverything := by
  refine ⟨rfl, ?others, fun _ _ => exec_trivInit_tstate, fun s => ⟨exec_srst s, fun t ht => ?after⟩⟩
  case others =>
    intro i s t hi ht huninit
    obtain hsame | hproducing := exec_tstate hi ht
    · exact hsame.symm.trans huninit
    · exact absurd (hproducing.symm.trans huninit) (by decide)
  case after =>
    obtain rfl := Host.Outcome.next.inj ((exec_srst s).symm.trans ht)
    exact ⟨⟨readReg_of_full_mask rfl _, fun _ hr => readReg_resetCore hr s⟩, fun pins => step_asserted _ pins rfl⟩

end Sys2Proof.Machine
end

section
/-! The lookups in the MARS S-box by index, the bits of a mask, and the commands that show both (R111 to R115, R138 to
R141). -/

namespace Sys2Proof.Machine

open Host.Outcome (next)

/-! ## Indices into the S-box (R111 to R113) -/

theorem Mars.S_eq (sbox : Sbox) (x : Word) : Mars.S sbox x = sbox (BitVec.ofNat 9 (x.toNat % 512)) := by
  refine congrArg sbox (BitVec.eq_of_toNat_eq ?_)
  simp

theorem Mars.S0_eq (sbox : Sbox) (x : Word) : Mars.S0 sbox x = sbox (BitVec.ofNat 9 (x.toNat % 256)) := by
  refine congrArg sbox (BitVec.eq_of_toNat_eq ?_)
  simp

theorem Mars.S1_eq (sbox : Sbox) (x : Word) : Mars.S1 sbox x = sbox (BitVec.ofNat 9 (256 + x.toNat % 256)) := by
  refine congrArg sbox (BitVec.eq_of_toNat_eq ?_)
  simp

/-! ## The mask (R115) -/

/-- The first scan goes down to `j` or further exactly when all bits from `j` up to its start are equal to `v`. -/
theorem Mars.runLo_le_iff (w : Word) (v : Bool) (lo j : Nat) :
    Mars.runLo w v lo ≤ j ↔ ∀ i, j ≤ i → i < lo → w.getLsbD i = v := by
  induction lo with
  | zero => exact iff_of_true (Nat.zero_le j) fun i _ hi => absurd hi i.not_lt_zero
  | succ lo ih =>
    rw [runLo]
    split
    next hbit =>
      rw [ih]
      refine forall₂_congr fun i _ => ⟨fun h hi => ?_, fun h hi => h (Nat.lt_succ_of_lt hi)⟩
      obtain hlt | rfl := Nat.lt_succ_iff_lt_or_eq.1 hi
      · exact h hlt
      · exact hbit
    next hbit =>
      refine ⟨fun h i hj hi => by omega, fun h => ?_⟩
      by_contra hlt
      exact hbit (h lo (by omega) (Nat.lt_succ_self lo))

/-- The second scan goes up to `j` or further exactly when it has room and all bits above its start up to `j` are equal
to `v`. -/
theorem Mars.le_runHi_iff (w : Word) (v : Bool) (room hi j : Nat) :
    j ≤ Mars.runHi w v room hi ↔ j ≤ hi + room ∧ ∀ i, hi < i → i ≤ j → w.getLsbD i = v := by
  induction room generalizing hi with
  | zero => exact ⟨fun h => ⟨h, fun i hlo hi' => absurd (hi'.trans h) hlo.not_ge⟩, fun h => h.1⟩
  | succ room ih =>
    rw [runHi]
    split
    next hbit =>
      rw [ih, Nat.add_right_comm, Nat.add_assoc]
      refine and_congr_right fun _ => forall_congr' fun i => ⟨fun h hlo => ?_, fun h hlo => h (by omega)⟩
      obtain hlt | rfl := Nat.lt_or_eq_of_le (Nat.succ_le_of_lt hlo)
      · exact h hlt
      · exact fun _ => hbit
    next hbit =>
      refine ⟨fun h => ⟨by omega, fun i hlo hi' => by omega⟩, fun ⟨_, h⟩ => ?_⟩
      by_contra hlt
      exact hbit (h (hi + 1) (Nat.lt_succ_self hi) (by omega))

/-- The two scans from an inner bit `l` reach a run of ten when some run of ten holds `l` and its neighbours. -/
theorem Mars.maskBit_iff (w : Word) {l : Nat} (hlo : 2 ≤ l) (hhi : l ≤ 30) :
    Mars.maskBit w l = true ↔ ∃ lo hi : Nat, lo + 1 ≤ l ∧ l + 1 ≤ hi ∧ hi ≤ 31 ∧ 10 ≤ hi - lo + 1 ∧
      ∀ j, lo ≤ j → j ≤ hi → w.getLsbD j = w.getLsbD l := by
  have hdown := Mars.runLo_le_iff w (w.getLsbD l) l
  have hup := Mars.le_runHi_iff w (w.getLsbD l) (31 - l) l
  simp only [maskBit, Bool.and_eq_true, beq_iff_eq, decide_eq_true_eq]
  generalize runLo w (w.getLsbD l) l = lo at hdown ⊢
  generalize runHi w (w.getLsbD l) (31 - l) l = hi at hup ⊢
  constructor
  · rintro ⟨⟨hbelow, habove⟩, hten⟩
    have hlow : lo ≤ l - 1 := (hdown _).2 fun i h1 h2 => (show i = l - 1 by omega) ▸ hbelow
    have hhigh : l + 1 ≤ hi := (hup _).2 ⟨by omega, fun i h1 h2 => (show i = l + 1 by omega) ▸ habove.symm⟩
    obtain ⟨htop, hbits⟩ := (hup hi).1 le_rfl
    refine ⟨lo, hi, by omega, hhigh, by omega, hten, fun j h1 h2 => ?_⟩
    obtain hlt | rfl | hgt := Nat.lt_trichotomy j l
    · exact (hdown lo).1 le_rfl j h1 hlt
    · rfl
    · exact hbits j hgt h2
  · rintro ⟨a, b, ha, hb, htop, hten, hrun⟩
    have hlow : lo ≤ a := (hdown a).2 fun i h1 h2 => hrun i h1 (by omega)
    have hhigh : b ≤ hi := (hup b).2 ⟨by omega, fun i h1 h2 => hrun i (by omega) h2⟩
    exact ⟨⟨hrun (l - 1) (by omega) (by omega), (hrun (l + 1) (by omega) hb).symm⟩, by omega⟩

/-- Bits set one by one under a condition. -/
theorem getLsbD_foldl_or_bit (p : Nat → Bool) (ls : List Nat) (m : Word) {j : Nat} (hj : j < 32) :
    (ls.foldl (fun m l => if p l then m ||| (1#32 <<< l) else m) m).getLsbD j =
      (m.getLsbD j || (decide (j ∈ ls) && p j)) := by
  induction ls generalizing m with
  | nil => simp
  | cons l ls ih =>
    rw [List.foldl_cons, ih]
    by_cases hl : j = l
    · subst hl
      cases p j <;> simp [hj]
    · cases p l <;> simp [← BitVec.twoPow_eq, BitVec.getLsbD_twoPow, hl, Ne.symm hl]

theorem Mars.getLsbD_mask_iff (w : Word) (l : Nat) :
    (Mars.mask w).getLsbD l = true ↔ 2 ≤ l ∧ l ≤ 30 ∧ Mars.maskBit w l = true := by
  by_cases hl : l < 32
  · rw [mask, getLsbD_foldl_or_bit _ _ _ hl]
    simp only [BitVec.ofNat_eq_ofNat, BitVec.getLsbD_zero, Bool.false_or, Bool.and_eq_true, decide_eq_true_eq,
      List.mem_range'_1, and_assoc, show l < 2 + 29 ↔ l ≤ 30 by omega]
  · exact iff_of_false (by simp [BitVec.getLsbD_of_ge _ l (Nat.not_lt.1 hl)]) (by omega)

/-- Settles O26: the fold sets the bits whose two scans reach a run of ten. -/
theorem maskMarksRunsOfTen : Obligations.MaskMarksRunsOfTen := by
  refine ⟨fun w l => (Mars.getLsbD_mask_iff w l).trans ?_, by decide +kernel, by decide +kernel, by decide +kernel,
    by decide +kernel⟩
  exact and_congr_right fun hlo => and_congr_right fun hhi => Mars.maskBit_iff w hlo hhi

/-- The ends of a mask are 0, as R115's loop leaves them out. -/
theorem Mars.getLsbD_mask_of_not_inner (w : Word) {l : Nat} (hl : ¬(2 ≤ l ∧ l ≤ 30)) :
    (Mars.mask w).getLsbD l = false :=
  Bool.eq_false_iff.2 fun h => hl ⟨((Mars.getLsbD_mask_iff w l).1 h).1, ((Mars.getLsbD_mask_iff w l).1 h).2.1⟩

/-! ## The lookup and mask commands (R138 to R141) -/

/-- Settles O25: each command is one write of MRES, and the examples look up the two entries the spec fixes. -/
theorem marsLookupsWriteMres : Obligations.MarsLookupsWriteMres := by
  refine ⟨rfl, rfl, rfl, rfl, fun s => ⟨rfl, ?s0, ?s1, rfl, ?exampleS0, ?exampleS1, ?exampleS, ?exampleMask, fun w =>
    ⟨Mars.getLsbD_mask_of_not_inner w (by omega), Mars.getLsbD_mask_of_not_inner w (by omega),
      Mars.getLsbD_mask_of_not_inner w (by omega)⟩⟩⟩
  case s0 => rw [← Mars.S0_eq marsSbox]; rfl
  case s1 => rw [← Mars.S1_eq marsSbox]; rfl
  case exampleS0 => exact fun h => ⟨_, rfl, by rw [State.setErr_mars, State.setMRes_mres, h]; rfl⟩
  case exampleS1 => exact fun h => ⟨_, rfl, by rw [State.setErr_mars, State.setMRes_mres, h]; rfl⟩
  case exampleS => exact fun h => ⟨_, rfl, by rw [State.setErr_mars, State.setMRes_mres, h]; rfl⟩
  case exampleMask =>
    obtain ⟨-, hexample, -⟩ := maskMarksRunsOfTen
    exact fun h => ⟨_, rfl, by rw [State.setErr_mars, State.setMRes_mres, h, hexample]⟩

end Sys2Proof.Machine
end

section
/-! The MARS key schedule pass by pass: what an in-place pass over a vector leaves, and the words of each pass (R116 to
R121). -/

namespace Sys2Proof.Machine

/-! ## In-place passes -/

section Passes

variable {α : Type} {m n : Nat}

/-- The buffer in the middle of an in-place pass from `t` to `u`: new words below position `p`, old words from there. -/
def partway (t u : Vector α n) (p : Nat) : Vector α n := .ofFn fun j => if j.val < p then u[j] else t[j]

theorem getElem_partway (t u : Vector α n) (p : Nat) {j : Nat} (hj : j < n) :
    (partway t u p)[j] = if j < p then u[j] else t[j] := by
  simp [partway]

theorem getElem_partway_new (t u : Vector α n) {p j : Nat} (hj : j < n) (h : j < p) : (partway t u p)[j] = u[j] := by
  rw [getElem_partway, if_pos h]

theorem getElem_partway_old (t u : Vector α n) {p j : Nat} (hj : j < n) (h : p ≤ j) : (partway t u p)[j] = t[j] := by
  rw [getElem_partway, if_neg h.not_gt]

/-- A pass over the positions `pos i`, in increasing order: `i` sets its position from the buffer at that moment. -/
def inPlacePass (pos : Fin m → Nat) (hpos : ∀ i, pos i < n) (f : Vector α n → Fin m → α) (is : List (Fin m))
    (t : Vector α n) : Vector α n :=
  is.foldl (fun t i => t.set (pos i) (f t i) (hpos i)) t

variable {pos : Fin m → Nat} {hpos : ∀ i, pos i < n} {f : Vector α n → Fin m → α}

theorem inPlacePass_cons (i : Fin m) (is : List (Fin m)) (t : Vector α n) :
    inPlacePass pos hpos f (i :: is) t = inPlacePass pos hpos f is (t.set (pos i) (f t i) (hpos i)) := rfl

theorem getElem_inPlacePass_other {is : List (Fin m)} {t : Vector α n} {j : Nat} (hj : j < n)
    (h : ∀ i ∈ is, pos i ≠ j) : (inPlacePass pos hpos f is t)[j] = t[j] := by
  induction is generalizing t with
  | nil => rfl
  | cons i is ih =>
    rw [inPlacePass_cons, ih fun i' hi' => h i' (List.mem_cons_of_mem i hi')]
    exact Vector.getElem_set_ne (hpos i) hj (h i List.mem_cons_self)

/-- Each position of a pass holds what its step makes of the new words before it and the old words from it on. -/
theorem getElem_inPlacePass {is : List (Fin m)} (his : is.Pairwise fun i i' => pos i < pos i') {t : Vector α n}
    {i : Fin m} (hi : i ∈ is) :
    (inPlacePass pos hpos f is t)[pos i]'(hpos i) = f (partway t (inPlacePass pos hpos f is t) (pos i)) i := by
  induction is generalizing t with
  | nil => exact absurd hi List.not_mem_nil
  | cons i₀ is ih =>
    obtain ⟨hfirst, hrest⟩ := List.pairwise_cons.1 his
    obtain rfl | hi := List.mem_cons.1 hi
    · have hbuffer : partway t (inPlacePass pos hpos f (i :: is) t) (pos i) = t := by
        ext j hj
        rw [getElem_partway]
        refine ite_eq_right_iff.2 fun hlt => getElem_inPlacePass_other hj fun i' hi' => ?_
        obtain rfl | hi' := List.mem_cons.1 hi'
        · exact hlt.ne'
        · exact (hlt.trans (hfirst i' hi')).ne'
      rw [hbuffer, inPlacePass_cons, getElem_inPlacePass_other (hpos i) fun i' hi' => (hfirst i' hi').ne']
      exact Vector.getElem_set_self (hpos i)
    · rw [inPlacePass_cons, ih hrest hi]
      congr 1
      ext j hj
      simp only [getElem_partway]
      refine ite_congr rfl (fun _ => rfl) fun hge => Vector.getElem_set_ne (hpos i₀) hj ?_
      have := hfirst i hi
      omega

/-- The whole pass over positions that increase with their index. -/
theorem getElem_inPlacePass_finRange (hmono : StrictMono pos) (t : Vector α n) (i : Fin m) :
    (inPlacePass pos hpos f (List.finRange m) t)[pos i]'(hpos i) =
      f (partway t (inPlacePass pos hpos f (List.finRange m) t) (pos i)) i :=
  getElem_inPlacePass ((List.pairwise_lt_finRange m).imp fun h => hmono h) (List.mem_finRange i)

end Passes

/-! ## The working buffer (R116) -/

/-- Settles O27: the key and the length are a list, and the words past its end are 0. -/
theorem workingBufferHoldsKeyLengthZeros : Obligations.WorkingBufferHoldsKeyLengthZeros := by
  intro key _ _ i
  have hword : (Mars.initT key)[i.val] = (key ++ [BitVec.ofNat 32 key.length]).getD i.val 0 := by
    simp [Mars.initT]
  rw [hword]
  refine ⟨fun h => ?key, fun h => ?length, fun h => ?zero⟩
  case key => rw [List.getD_append _ _ _ _ h, List.getD_eq_getElem _ _ h]
  case length => simp [h]
  case zero => exact List.getD_eq_default _ _ (by simpa using h)

/-! ## The linear and the stirring pass (R117, R118) -/

/-- `a` and `b` are the places 7 and 2 back from `i`, counted around the buffer. -/
theorem Mars.getElem_linearPass (j : Nat) (t : Vector Word 15) {i a b : Nat} (hi : i < 15) (ha : a = (i + 8) % 15)
    (hb : b = (i + 13) % 15) :
    (Mars.linearPass j t)[i] = t[i] ^^^ rotl32 ((partway t (Mars.linearPass j t) i)[a] ^^^
      (partway t (Mars.linearPass j t) i)[b]) 3 ^^^ BitVec.ofNat 32 (4 * i + j) := by
  subst ha hb
  have hpass := getElem_inPlacePass_finRange (pos := Fin.val) (hpos := Fin.isLt) (f := fun t i => t[i.val] ^^^
    rotl32 (t[(i.val + 8) % 15] ^^^ t[(i.val + 13) % 15]) 3 ^^^ BitVec.ofNat 32 (4 * i.val + j)) Fin.val_strictMono t
    ⟨i, hi⟩
  rw [getElem_partway_old _ _ hi le_rfl] at hpass
  exact hpass

/-- Settles O28: the places 7 and 2 back wrap around to old words before word 7 and before word 2, and are updated words
from there. -/
theorem linearPassIsInPlace : Obligations.LinearPassIsInPlace := by
  intro j t u
  refine ⟨fun i => ?bothOld, fun i => ?firstOld, fun i => ?bothNew⟩
  case bothOld =>
    rw [Mars.getElem_linearPass j t (a := i.val + 8) (b := i.val + 13) (by omega) (by omega) (by omega),
      getElem_partway_old _ _ _ (by omega), getElem_partway_old _ _ _ (by omega)]
  case firstOld =>
    rw [Mars.getElem_linearPass j t (a := i.val + 10) (b := i.val) (by omega) (by omega) (by omega),
      getElem_partway_old _ _ _ (by omega), getElem_partway_new _ _ _ (by omega)]
  case bothNew =>
    rw [Mars.getElem_linearPass j t (a := i.val) (b := i.val + 5) (by omega) (by omega) (by omega),
      getElem_partway_new _ _ _ (by omega), getElem_partway_new _ _ _ (by omega)]

/-- `a` is the place before `i`, counted around the buffer. -/
theorem Mars.getElem_stirPass (sbox : Sbox) (t : Vector Word 15) {i a : Nat} (hi : i < 15) (ha : a = (i + 14) % 15) :
    (Mars.stirPass sbox t)[i] =
      rotl32 (t[i] + Mars.S sbox (partway t (Mars.stirPass sbox t) i)[a]) 9 := by
  subst ha
  have hpass := getElem_inPlacePass_finRange (pos := Fin.val) (hpos := Fin.isLt)
    (f := fun t i => rotl32 (t[i.val] + Mars.S sbox t[(i.val + 14) % 15]) 9) Fin.val_strictMono t ⟨i, hi⟩
  rw [getElem_partway_old _ _ hi le_rfl] at hpass
  exact hpass

/-- Settles O29: the place before word 0 wraps around to the old end, every other one is an updated word. -/
theorem stirringPassIsInPlace : Obligations.StirringPassIsInPlace := by
  intro sbox t u
  refine ⟨?wrapped, fun i => ?new, fun j => rfl⟩
  case wrapped =>
    rw [Mars.getElem_stirPass sbox t (a := 14) (by omega) rfl, getElem_partway_old _ _ _ (by omega)]
  case new =>
    rw [Mars.getElem_stirPass sbox t (a := i.val) (by omega) (by omega), getElem_partway_new _ _ _ (by omega)]

/-! ## Extraction (R119) -/

/-- The ten words that a round index takes from the buffer. -/
def Mars.takenWords (t : Vector Word 15) : List Word := (List.finRange 10).map fun i => t[(4 * i.val) % 15]

theorem Mars.takenWords_eq (t : Vector Word 15) :
    Mars.takenWords t = [t[0], t[4], t[8], t[12], t[1], t[5], t[9], t[13], t[2], t[6]] := rfl

/-- Round index `j` leaves the words before its ten places and puts the taken words there. -/
theorem Mars.take_extract (j : Fin 4) (t : Vector Word 15) (k : Vector Word 40) :
    (Mars.extract j t k).toList.take (10 * j.val + 10) = k.toList.take (10 * j.val) ++ Mars.takenWords t := by
  have hpos (i : Fin 10) : 10 * j.val + i.val < 40 := by omega
  have hother {p : Nat} (hp : p < 10 * j.val) : (Mars.extract j t k)[p] = k[p] :=
    getElem_inPlacePass_other (pos := fun i : Fin 10 => 10 * j.val + i.val) (hpos := hpos) (by omega)
      fun i _ => by omega
  have htaken (i : Fin 10) : (Mars.extract j t k)[10 * j.val + i.val] = t[(4 * i.val) % 15] :=
    getElem_inPlacePass_finRange (pos := fun i : Fin 10 => 10 * j.val + i.val) (hpos := hpos)
      (f := fun _ i => t[(4 * i.val) % 15]) (fun _ _ h => Nat.add_lt_add_left h _) k i
  refine List.ext_getElem ?length fun p h1 h2 => ?word
  case length =>
    simp only [List.length_take, List.length_append, Vector.length_toList, takenWords, List.length_map,
      List.length_finRange]
    omega
  rw [List.getElem_take, Vector.getElem_toList]
  by_cases hp : p < 10 * j.val
  · have hold : p < (k.toList.take (10 * j.val)).length := by
      rw [List.length_take, Vector.length_toList]
      omega
    rw [List.getElem_append_left hold, List.getElem_take, Vector.getElem_toList, hother hp]
  · obtain ⟨i, rfl⟩ := Nat.exists_eq_add_of_le (Nat.not_lt.1 hp)
    simp only [List.length_take, Vector.length_toList] at h1
    rw [List.getElem_append_right (by simp), htaken ⟨i, by omega⟩]
    simp [takenWords, show 10 * j.val ≤ 40 by omega]

/-- After the four round indices all forty words are taken words. -/
theorem Mars.toList_extract_all (t0 t1 t2 t3 : Vector Word 15) (k : Vector Word 40) :
    (Mars.extract 3 t3 (Mars.extract 2 t2 (Mars.extract 1 t1 (Mars.extract 0 t0 k)))).toList =
      Mars.takenWords t0 ++ Mars.takenWords t1 ++ Mars.takenWords t2 ++ Mars.takenWords t3 := by
  have h0 : (extract 0 t0 k).toList.take 10 = takenWords t0 := take_extract 0 t0 k
  generalize extract 0 t0 k = k0 at h0 ⊢
  have h1 : (extract 1 t1 k0).toList.take 20 = k0.toList.take 10 ++ takenWords t1 := take_extract 1 t1 k0
  generalize extract 1 t1 k0 = k1 at h1 ⊢
  have h2 : (extract 2 t2 k1).toList.take 30 = k1.toList.take 20 ++ takenWords t2 := take_extract 2 t2 k1
  generalize extract 2 t2 k1 = k2 at h2 ⊢
  have h3 : (extract 3 t3 k2).toList.take 40 = k2.toList.take 30 ++ takenWords t3 := take_extract 3 t3 k2
  rw [List.take_of_length_le (by simp)] at h3
  rw [h3, h2, h1, h0]

/-- Settles O30: the four indices run one after the other, and each appends its ten words to those before. -/
theorem scheduleTakesEveryFourthWord : Obligations.ScheduleTakesEveryFourthWord := by
  intro sbox t t0 t1 t2 t3
  refine ⟨?_, fun key => rfl⟩
  have hexpand : Mars.expand sbox t =
      Mars.extract 3 t3 (Mars.extract 2 t2 (Mars.extract 1 t1 (Mars.extract 0 t0 (.replicate 40 0)))) := by
    simp only [Mars.expand, show List.finRange 4 = [0, 1, 2, 3] from rfl, List.foldl_cons, List.foldl_nil]
    rfl
  rw [hexpand, Mars.toList_extract_all]
  simp [Mars.takenWords_eq]

/-! ## The multiplication words (R120) -/

/-- R120's step with the library's rotation and the amount as a remainder. -/
theorem Mars.fixWord_eq (ki kPrev : Word) :
    Mars.fixWord ki kPrev = (ki ||| 3) ^^^ ((Mars.B[(ki.extractLsb' 0 2).toNat]'(BitVec.isLt _)).rotateLeft
      (kPrev.toNat % 32) &&& Mars.mask (ki ||| 3)) := by
  simp [fixWord, rotl32_eq_rotateLeft]

/-- A mask has no bit 0 or 1, so that the two forced bits stay. -/
theorem Mars.extractLsb'_fixWord (ki kPrev : Word) : (Mars.fixWord ki kPrev).extractLsb' 0 2 = 3 := by
  have hmask : (Mars.mask (ki ||| 3)).extractLsb' 0 2 = 0 := by
    ext i hi
    rw [BitVec.getElem_extractLsb', Nat.zero_add, Mars.getLsbD_mask_of_not_inner _ (by omega)]
    exact (BitVec.getElem_zero hi).symm
  have hforced : (ki ||| 3).extractLsb' 0 2 = 3 := by
    rw [BitVec.extractLsb'_or]
    exact BitVec.or_allOnes
  rw [fixWord_eq, BitVec.extractLsb'_xor, BitVec.extractLsb'_and, hmask, hforced]
  simp

theorem Mars.getElem_fixup_other (k : Vector Word 40) {i : Nat} (hi : i < 40) (h : i < 5 ∨ 35 < i ∨ i % 2 = 0) :
    (Mars.fixup k)[i] = k[i] :=
  getElem_inPlacePass_other (pos := fun t : Fin 16 => 2 * t.val + 5) (hpos := fun t => by omega) hi fun t _ => by omega

/-- A word is fixed from old words: the word before it is at an even place, which no step changes. -/
theorem Mars.getElem_fixup (k : Vector Word 40) (t : Fin 16) :
    (Mars.fixup k)[2 * t.val + 5] = Mars.fixWord k[2 * t.val + 5] k[2 * t.val + 4] := by
  have hpass := getElem_inPlacePass_finRange (pos := fun t : Fin 16 => 2 * t.val + 5) (hpos := fun t => by omega)
    (f := fun k t => Mars.fixWord k[2 * t.val + 5] k[2 * t.val + 4])
    (fun t t' h => show 2 * t.val + 5 < 2 * t'.val + 5 by omega) k t
  have heven := getElem_partway k (Mars.fixup k) (2 * t.val + 5) (j := 2 * t.val + 4) (by omega)
  rw [Mars.getElem_fixup_other k (by omega) (by omega), ite_self] at heven
  simp only [getElem_partway_old _ _ _ le_rfl] at hpass
  exact hpass.trans (congrArg _ heven)

/-- Settles O31: the sixteen steps set the odd places from 5 to 35, each from old words. -/
theorem fixupChangesTheMultiplicationWords : Obligations.FixupChangesTheMultiplicationWords := by
  intro k f
  refine ⟨fun t => ?_, fun i h => Mars.getElem_fixup_other k i.isLt h⟩
  intro w b
  have hfixed : f[2 * t.val + 5] = Mars.fixWord w k[2 * t.val + 4] := Mars.getElem_fixup k t
  have htable : Mars.B[(w.extractLsb' 0 2).toNat]'(BitVec.isLt _) = b := by
    simp only [b]
    generalize w.extractLsb' 0 2 = jj
    revert jj
    decide
  exact ⟨by rw [hfixed, Mars.fixWord_eq, htable], hfixed ▸ Mars.extractLsb'_fixWord _ _⟩

end Sys2Proof.Machine
end

section
/-! The rounds of the MARS cipher in closed form, each round's inverse, and the round trip through the cipher (R122 to
R131). -/

namespace Sys2Proof.Machine

/-! ## The rounds (R122 to R125) -/

theorem Mars.S0_ushiftRight (sbox : Sbox) (x : Word) (n : Nat) :
    Mars.S0 sbox (x >>> n) = sbox (BitVec.ofNat 9 (x.toNat / 2 ^ n % 256)) := by
  rw [S0_eq, BitVec.toNat_ushiftRight, Nat.shiftRight_eq_div_pow]

theorem Mars.S1_ushiftRight (sbox : Sbox) (x : Word) (n : Nat) :
    Mars.S1 sbox (x >>> n) = sbox (BitVec.ofNat 9 (256 + x.toNat / 2 ^ n % 256)) := by
  rw [S1_eq, BitVec.toNat_ushiftRight, Nat.shiftRight_eq_div_pow]

/-- Settles O32: the tables are read at bytes of the words, and no round adds or subtracts both words. -/
theorem marsRoundsAreAsGiven : Obligations.MarsRoundsAreAsGiven := by
  intro sbox k a b c d s0 s1
  have hs0 (x : Word) (n : Nat) : Mars.S0 sbox (x >>> (8 * n)) = s0 x n := Mars.S0_ushiftRight sbox x (8 * n)
  have hs1 (x : Word) (n : Nat) : Mars.S1 sbox (x >>> (8 * n)) = s1 x n := Mars.S1_ushiftRight sbox x (8 * n)
  refine ⟨fun i => ?forward, fun x k1 k2 => ?e, fun i => ?core, fun i => ?backward, rfl⟩
  case forward =>
    have hboth : (i = 0 ∨ i = 4) → ¬(i = 1 ∨ i = 5) := by omega
    rw [← hs0, ← hs0, ← hs1, ← hs1]
    by_cases hd : i = 0 ∨ i = 4
    · simp [Mars.forwardRound, Block.rotate, hd, hboth hd, rotr32_eq_rotateRight]
    · simp [Mars.forwardRound, Block.rotate, hd, rotr32_eq_rotateRight]
  case e =>
    simp [Mars.E, rotl32_eq_rotateLeft, Mars.S_eq]
  case core =>
    by_cases hi : i.val < 8 <;> simp [Mars.coreRound, Block.rotate, hi, rotl32_eq_rotateLeft]
  case backward =>
    intro a'
    rw [← hs0, ← hs0, ← hs1, ← hs1]
    have hboth : (i = 2 ∨ i = 6) → ¬(i = 3 ∨ i = 7) := by omega
    by_cases hd : i = 2 ∨ i = 6
    · simp [Mars.backwardRound, Block.rotate, a', hd, hboth hd, rotl32_eq_rotateLeft]
    · simp [Mars.backwardRound, Block.rotate, a', hd, rotl32_eq_rotateLeft]

/-! ## Inverses -/

/-- Rounds undone one by one from the last to the first. -/
theorem foldl_reverse_leftInverse {ι β : Type} {f g : ι → β → β} (h : ∀ i, Function.LeftInverse (g i) (f i))
    (is : List ι) (x : β) : is.reverse.foldl (fun x i => g i x) (is.foldl (fun x i => f i x) x) = x := by
  induction is generalizing x with
  | nil => rfl
  | cons i is ih =>
    rw [List.reverse_cons, List.foldl_append, List.foldl_cons (l := is), ih, List.foldl_cons, List.foldl_nil, h i x]

theorem Block.subKey_addKey (x : Block) (k0 k1 k2 k3 : Word) : (x.addKey k0 k1 k2 k3).subKey k0 k1 k2 k3 = x := by
  simp [addKey, subKey]

theorem Block.addKey_subKey (x : Block) (k0 k1 k2 k3 : Word) : (x.subKey k0 k1 k2 k3).addKey k0 k1 k2 k3 = x := by
  simp [addKey, subKey]

/-- There are finitely many blocks, so that an inverse on one side is one on both. -/
theorem Block.finite : Finite Block :=
  have words : Finite Word := Finite.of_injective BitVec.toFin fun _ _ h => BitVec.toFin_inj.1 h
  Finite.of_injective (fun x : Block => (x.a, x.b, x.c, x.d)) fun x y h => by
    cases x; cases y; simpa using h

section Rounds

variable (sbox : Sbox) (k : Vector Word 40)

/-- A round adds at most one word to the first, and the inverse subtracts that same word before it undoes the others. -/
theorem Mars.invForwardRound_forwardRound (i : Nat) :
    Function.LeftInverse (Mars.invForwardRound sbox i) (Mars.forwardRound sbox i) := by
  rintro ⟨a, b, c, d⟩
  have hboth : (i = 0 ∨ i = 4) → ¬(i = 1 ∨ i = 5) := by omega
  by_cases hd : i = 0 ∨ i = 4
  · simp [invForwardRound, forwardRound, Block.rotate, Block.unrotate, hd, hboth hd]
  · by_cases hb : i = 1 ∨ i = 5 <;>
      simp [invForwardRound, forwardRound, Block.rotate, Block.unrotate, hd, hb]

/-- Both rounds apply E to the same word. -/
theorem Mars.invCoreRound_coreRound (i : Fin 16) :
    Function.LeftInverse (Mars.invCoreRound sbox k i) (Mars.coreRound sbox k i) := by
  rintro ⟨a, b, c, d⟩
  by_cases hi : i.val < 8 <;> simp [invCoreRound, coreRound, Block.rotate, Block.unrotate, hi]

/-- A round subtracts at most one word from the first, and the inverse restores that word before it adds it. -/
theorem Mars.invBackwardRound_backwardRound (i : Nat) :
    Function.LeftInverse (Mars.invBackwardRound sbox i) (Mars.backwardRound sbox i) := by
  rintro ⟨a, b, c, d⟩
  have hboth : (i = 2 ∨ i = 6) → ¬(i = 3 ∨ i = 7) := by omega
  by_cases hd : i = 2 ∨ i = 6
  · simp [invBackwardRound, backwardRound, Block.rotate, Block.unrotate, hd, hboth hd]
  · by_cases hb : i = 3 ∨ i = 7 <;>
      simp [invBackwardRound, backwardRound, Block.rotate, Block.unrotate, hd, hb]

/-! ## Decryption and encryption (R131) -/

theorem Mars.invForwardMix_forwardMix (x : Block) : Mars.invForwardMix sbox k (Mars.forwardMix sbox k x) = x := by
  rw [invForwardMix, forwardMix, foldl_reverse_leftInverse (invForwardRound_forwardRound sbox), Block.subKey_addKey]

theorem Mars.invCoreRounds_coreRounds (x : Block) : Mars.invCoreRounds sbox k (Mars.coreRounds sbox k x) = x :=
  foldl_reverse_leftInverse (invCoreRound_coreRound sbox k) _ x

theorem Mars.invBackwardMix_backwardMix (x : Block) : Mars.invBackwardMix sbox k (Mars.backwardMix sbox k x) = x := by
  rw [invBackwardMix, backwardMix, Block.addKey_subKey, foldl_reverse_leftInverse (invBackwardRound_backwardRound sbox)]

theorem Mars.decrypt_encrypt : Function.LeftInverse (Mars.decrypt sbox k) (Mars.encrypt sbox k) := fun x => by
  rw [decrypt, encrypt, invBackwardMix_backwardMix, invCoreRounds_coreRounds, invForwardMix_forwardMix]

/-- Encryption is one-to-one, so that every block is the encryption of some block. -/
theorem Mars.encrypt_decrypt : Function.LeftInverse (Mars.encrypt sbox k) (Mars.decrypt sbox k) := fun x => by
  have := Block.finite
  obtain ⟨y, rfl⟩ := Finite.surjective_of_injective (decrypt_encrypt sbox k).injective x
  rw [decrypt_encrypt sbox k y]

end Rounds

/-- Settles O33: each phase undoes its rounds from the last to the first, and on finitely many blocks a left inverse is
a right inverse. -/
theorem marsDecryptUndoesEncrypt : Obligations.MarsDecryptUndoesEncrypt := fun sbox k x =>
  ⟨Mars.decrypt_encrypt sbox k x, Mars.encrypt_decrypt sbox k x⟩

end Sys2Proof.Machine
end

section
/-! The MARS commands: what they write, the round trip through the registers, and who can change or see the schedule
(R136, R137, R142). -/

namespace Sys2Proof.Machine

open Host.Outcome (next)

/-! ## MARS_ENC and MARS_DEC (R136, R137) -/

theorem execMarsEnc_keyed {s : State} (h : s.mars.mkeyed = true) :
    execMarsEnc s = next ((s.setMOut (Mars.encrypt marsSbox s.mars.k (.ofWords s.mars.mIn)).toWords).setErr .ok) :=
  if_pos h

theorem execMarsDec_keyed {s : State} (h : s.mars.mkeyed = true) :
    execMarsDec s = next ((s.setMOut (Mars.decrypt marsSbox s.mars.k (.ofWords s.mars.mIn)).toWords).setErr .ok) :=
  if_pos h

theorem execMarsEnc_unkeyed {s : State} (h : s.mars.mkeyed = false) : execMarsEnc s = next (s.setErr .nokey) :=
  if_neg (by simp [h])

theorem execMarsDec_unkeyed {s : State} (h : s.mars.mkeyed = false) : execMarsDec s = next (s.setErr .nokey) :=
  if_neg (by simp [h])

/-- Settles O24: the block is MIN's four words, and MOUT the four words of the result. -/
theorem marsEncAndDecWriteMout : Obligations.MarsEncAndDecWriteMout :=
  ⟨rfl, rfl, fun _ => ⟨fun h => ⟨execMarsEnc_keyed h, execMarsDec_keyed h⟩,
    fun h => ⟨execMarsEnc_unkeyed h, execMarsDec_unkeyed h⟩⟩⟩

/-! ## The round trip through the registers (R131, R135) -/

theorem execMarsKey_legal {n : Nat} (hlo : 4 ≤ n) (hhi : n ≤ 14) (s : State) :
    execMarsKey n s = next
      ((s.latchMars (Mars.keySchedule marsSbox (marsKeyWords s.mars.mkey n)) true (BitVec.ofNat 4 n)).setErr .ok) :=
  if_neg (by omega)

theorem execMarsKey_illegal {n : Nat} (h : n < 4 ∨ 14 < n) (s : State) :
    execMarsKey n s = next ((s.latchMars (.replicate 40 0) false 0).setErr .keylen) :=
  if_pos h

theorem Block.toWords_ofWords (v : Vector Word 4) : (Block.ofWords v).toWords = v := by
  ext i hi
  obtain rfl | rfl | rfl | rfl : i = 0 ∨ i = 1 ∨ i = 2 ∨ i = 3 := by omega
  all_goals rfl

theorem Block.ofWords_toWords (x : Block) : Block.ofWords x.toWords = x := rfl

theorem set_all_words (u v : Vector Word 4) : (((u.set 0 v[0]).set 1 v[1]).set 2 v[2]).set 3 v[3] = v := by
  ext i hi
  obtain rfl | rfl | rfl | rfl : i = 0 ∨ i = 1 ∨ i = 2 ∨ i = 3 := by omega
  all_goals simp

theorem serve_write_mIn (i : Fin 4) (w : Word) (s : State) :
    serve (.memWrite (Reg.addr (.mIn i)) w) s =
      next ({ s with mars := { s.mars with mIn := s.mars.mIn.set i.val w } }.respond (some .done)) := by
  rw [serve_memWrite (.mIn i) w s nofun, writeReg, Reg.mask, and_full_mask]

/-- Four writes to MIN over the bus set its four words and nothing else of the MARS engine (R26, R52). -/
theorem serveAll_write_mIn (v : Vector Word 4) (s : State) :
    ∃ rs t, serveAll [.memWrite 0x140 v[0], .memWrite 0x144 v[1], .memWrite 0x148 v[2], .memWrite 0x14C v[3]] s =
        some (rs, t) ∧ t.mars = { s.mars with mIn := v } := by
  have write0 (s : State) : serve (.memWrite 0x140 v[0]) s = _ := serve_write_mIn 0 v[0] s
  have write1 (s : State) : serve (.memWrite 0x144 v[1]) s = _ := serve_write_mIn 1 v[1] s
  have write2 (s : State) : serve (.memWrite 0x148 v[2]) s = _ := serve_write_mIn 2 v[2] s
  have write3 (s : State) : serve (.memWrite 0x14C v[3]) s = _ := serve_write_mIn 3 v[3] s
  rw [serveAll_cons _ _ _ _ (write0 s), serveAll_cons _ _ _ _ (write1 _), serveAll_cons _ _ _ _ (write2 _),
    serveAll_cons _ _ _ _ (write3 _)]
  exact ⟨_, _, rfl, congrArg (fun w => { s.mars with mIn := w }) (set_all_words s.mars.mIn v)⟩

/-- Settles O34: MOUT goes to MIN whole, and the schedule stays between the two commands. -/
theorem marsCommandsRoundTrip : Obligations.MarsCommandsRoundTrip := by
  intro n s s1 s2 hlo hhi hkey henc
  obtain ⟨rs, s3, hserve, hmars⟩ := serveAll_write_mIn s2.mars.mOut s2
  obtain rfl := Host.Outcome.next.inj ((execMarsKey_legal hlo hhi s).symm.trans hkey)
  obtain rfl := Host.Outcome.next.inj ((execMarsEnc_keyed rfl).symm.trans henc)
  refine ⟨rs, s3, _, hserve, execMarsDec_keyed (by rw [hmars]; rfl), ?_, rfl⟩
  simp only [State.setErr_mars, State.setMOut_mOut, State.setMOut_k, State.latchMars_k, State.latchMars_mIn,
    hmars, Block.ofWords_toWords, Mars.decrypt_encrypt marsSbox _ _, Block.toWords_ofWords]

/-! ## Who changes the schedule, and who sees it (R142) -/

/-- The MARS engine replaced. -/
def State.setMars (s : State) (m : MarsState) : State := { s with mars := m }

@[simp] theorem State.setMars_salsa (s : State) (m : MarsState) : (s.setMars m).salsa = s.salsa := rfl
@[simp] theorem State.setMars_triv (s : State) (m : MarsState) : (s.setMars m).triv = s.triv := rfl

theorem refillKs_setMars (s : State) (m : MarsState) : refillKs (s.setMars m) = (refillKs s).setMars m := by
  simp only [refillKs_eq]
  rfl

theorem advanceStream_setMars (s : State) (m : MarsState) :
    advanceStream (s.setMars m) = (advanceStream s).setMars m := by
  simp only [advanceStream, apply_ite (State.setMars · m)]
  rfl

theorem setSdout_setMars (s : State) (m : MarsState) (w : Word) :
    (s.setMars m).setSdout w = (s.setSdout w).setMars m := rfl

/-- A change made to the state that a step ends in. -/
def mapNext (f : State → State) : Host.Outcome State Fault Refusal → Host.Outcome State Fault Refusal
  | .next s => .next (f s)
  | .fault r => .fault r
  | .refused r => .refused r

/-- A command of the other two engines neither sees nor changes the MARS engine. -/
theorem exec_setMars {i : Instr} (hi : i.family = .salsa ∨ i.family = .trivium) (s : State) (m : MarsState) :
    exec i (s.setMars m) = mapNext (·.setMars m) (exec i s) := by
  cases i with
  | nop | srst | marsKey _ | marsEnc | marsDec | marsS | marsS0 | marsS1 | marsMask => simp [Instr.family] at hi
  | salsaKey | salsaQr | salsaHash | trivInit => rfl
  | salsaBlock | salsaStart | trivClk | trivByte | trivXor =>
    simp only [exec, execSalsaBlock, execSalsaStart, execTrivClk, execTrivByte, execTrivXor, State.setMars_salsa,
      State.setMars_triv, apply_ite (mapNext _)]
    rfl
  | salsaXor =>
    simp only [exec, execSalsaXor, State.setMars_salsa, refillKs_setMars, setSdout_setMars, advanceStream_setMars,
      apply_ite (mapNext _)]
    rfl

/-- A command of the other two engines keeps the MARS engine (R254). -/
theorem exec_other_mars {i : Instr} {s t : State} (hi : i.family = .salsa ∨ i.family = .trivium)
    (h : exec i s = next t) : t.mars = s.mars := by
  obtain hi | hi := hi
  · obtain ⟨_, _, rfl⟩ := exec_salsa_shape i s t hi h
    rfl
  · obtain ⟨_, _, rfl⟩ := exec_triv_shape i s t hi h
    rfl

/-- A MARS command other than MARS_KEY writes MOUT or MRES, and ERR. -/
theorem exec_mars_result {i : Instr} {s t : State} (hi : i.family = .mars) (hkey : ∀ n, i ≠ .marsKey n)
    (h : exec i s = next t) :
    t = { s with err := t.err, mars := { s.mars with mOut := t.mars.mOut, mres := t.mars.mres } } := by
  have guarded {u : State} {code : ErrCode} (v : Vector Word 4) (hu : u = s.setMOut v)
      (h : (if s.mars.mkeyed then succeed u else raiseCmdError code s) = next t) :
      t = { s with err := t.err, mars := { s.mars with mOut := t.mars.mOut, mres := t.mars.mres } } := by
    subst hu
    split at h <;> rw [← Host.Outcome.next.inj h] <;> rfl
  cases i with
  | marsKey n => exact absurd rfl (hkey n)
  | marsEnc | marsDec => exact guarded _ rfl h
  | marsS | marsS0 | marsS1 | marsMask => rw [eq_setErr_of_succeed h]; rfl
  | _ => simp [Instr.family] at hi

/-- Under another schedule a command other than MARS_ENC and MARS_DEC leaves the same outside the schedule. -/
theorem exec_of_other_schedule {i : Instr} (henc : i ≠ .marsEnc) (hdec : i ≠ .marsDec) (s : State)
    (k : Vector Word 40) :
    ∃ t t', exec i s = next t ∧ exec i { s with mars := { s.mars with k := k } } = next t' ∧
      t' = { t with mars := { t.mars with k := t'.mars.k } } := by
  by_cases hother : i.family = .salsa ∨ i.family = .trivium
  · obtain ⟨t, ht⟩ := exec_answers i s
    have ht' := exec_setMars hother s { s.mars with k := k }
    rw [ht] at ht'
    refine ⟨t, _, ht, ht', ?_⟩
    rw [exec_other_mars hother ht]
    rfl
  · cases i with
    | marsEnc => exact absurd rfl henc
    | marsDec => exact absurd rfl hdec
    | nop | srst | marsS | marsS0 | marsS1 | marsMask => exact ⟨_, _, rfl, rfl, rfl⟩
    | marsKey n =>
      by_cases hn : n < 4 ∨ 14 < n
      · exact ⟨_, _, execMarsKey_illegal hn s, execMarsKey_illegal hn _, rfl⟩
      · exact ⟨_, _, execMarsKey_legal (by omega) (by omega) s, execMarsKey_legal (by omega) (by omega) _, rfl⟩
    | _ => simp [Instr.family] at hother

/-- Settles O35: a MARS command writes its results, NOP writes ERR, and the other engines' commands keep the whole MARS
engine. -/
theorem onlyKeyAndResetChangeTheSchedule : Obligations.OnlyKeyAndResetChangeTheSchedule := by
  refine ⟨?reads, fun i s k henc hdec => exec_of_other_schedule henc hdec s k, ?keeps⟩
  case reads =>
    intro s k r
    cases r <;> rfl
  case keeps =>
    intro i s t hkey hsrst h
    by_cases hmars : i.family = .mars
    · have hresult := exec_mars_result hmars hkey h
      exact ⟨by rw [hresult], by rw [hresult], by rw [hresult], fun _ => hresult⟩
    · have hsame : t.mars = s.mars := by
        cases i with
        | nop => rw [eq_setErr_of_succeed h, State.setErr_mars]
        | srst => exact absurd rfl hsrst
        | salsaKey | salsaQr | salsaHash | salsaBlock | salsaStart | salsaXor => exact exec_other_mars (.inl rfl) h
        | trivInit | trivClk | trivByte | trivXor => exact exec_other_mars (.inr rfl) h
        | _ => exact absurd rfl hmars
      rw [hsame]
      exact ⟨rfl, rfl, rfl, fun h => absurd h hmars⟩

end Sys2Proof.Machine
end

section
/-! The functions of the Salsa20 engine: the quarter round and the rounds built of it, the expansion as bytes, and
encryption byte by byte (R160 to R168). -/

namespace Sys2Proof.Machine

/-! ## Rounds (R160 to R163) -/

/-- Settles O36: the lines are the definition's, with the library's rotation. -/
theorem quarterRoundIsAsGiven : Obligations.QuarterRoundIsAsGiven := by
  refine ⟨fun y0 y1 y2 y3 z0 z1 z2 z3 => ?lines, by decide, by decide⟩
  simp only [Salsa.quarterRound, rotl32_eq_rotateLeft, Prod.mk.injEq]
  constructor
  · rintro ⟨rfl, rfl, rfl, rfl⟩
    exact ⟨rfl, rfl, rfl, rfl⟩
  · rintro ⟨rfl, rfl, rfl, rfl⟩
    exact ⟨rfl, rfl, rfl, rfl⟩

/-- A word after a quarter round in place: at one of the four places its result, elsewhere the old word. -/
theorem Salsa.getElem_quarterAt (x : Vector Word 16) (i0 i1 i2 i3 : Fin 16) {j : Nat} (hj : j < 16) :
    (Salsa.quarterAt x i0 i1 i2 i3)[j] =
      let z := Salsa.quarterRound x[i0] x[i1] x[i2] x[i3]
      if i3 = j then z.2.2.2 else if i2 = j then z.2.2.1 else if i1 = j then z.2.1 else if i0 = j then z.1
      else x[j] := by
  simp only [quarterAt, Vector.getElem_set, Fin.getElem_fin]

/-- Settles O37: no place is in two groups, so that each quarter round takes words of the round's input and leaves its
results to the end. -/
theorem roundsAreFourQuarterRounds : Obligations.RoundsAreFourQuarterRounds := by
  intro x
  refine ⟨rfl, ⟨?_, ?_, ?_, ?_⟩, ⟨?_, ?_, ?_, ?_⟩⟩
  all_goals simp [Salsa.columnRound, Salsa.rowRound, Salsa.getElem_quarterAt]

/-! ## The expansion (R164, R165) -/

/-- A byte of a word that is cut out of a counter is a byte of the counter. -/
theorem byte_extractLsb' {w : Nat} (c : BitVec w) (i : Nat) {k : Nat} (hk : k < 4) :
    byte (c.extractLsb' i 32) k = c.extractLsb' (i + 8 * k) 8 := by
  ext j hj
  simp only [byte, BitVec.getElem_extractLsb', BitVec.getLsbD_extractLsb', Nat.add_assoc,
    decide_eq_true (show 8 * k + j < 32 by omega), Bool.true_and]

/-- The bytes of a word from the least significant (R13). -/
def wordBytes (w : Word) : List Byte := [byte w 0, byte w 1, byte w 2, byte w 3]

theorem toList_skeyBytes (k : Vector Word 8) :
    (skeyBytes k).toList = [k[0], k[1], k[2], k[3], k[4], k[5], k[6], k[7]].flatMap wordBytes := by
  rw [skeyBytes, Vector.toList_ofFn]
  rfl

theorem toList_snonceBytes (n : Vector Word 2) : (snonceBytes n).toList = [n[0], n[1]].flatMap wordBytes := by
  rw [snonceBytes, Vector.toList_ofFn]
  rfl

/-- The eight bytes of a counter are those of its low word, then those of its high word. -/
theorem counterBytes (c : BitVec 64) : ((List.range 8).map fun j => c.extractLsb' (8 * j) 8) =
    [c.extractLsb' 0 32, c.extractLsb' 32 32].flatMap wordBytes := by
  simp [wordBytes, byte_extractLsb', List.range_succ]

/-- Settles O38: the words are the definition's list, and each group of bytes is the bytes of its words. -/
theorem expansionBytesAreInterleaved : Obligations.ExpansionBytesAreInterleaved := by
  intro skey nonce c
  refine ⟨rfl, ?bytes⟩
  rw [toList_skeyBytes, toList_snonceBytes, counterBytes]
  rfl

/-! ## Encryption (R168) -/

theorem Salsa.streamByte_eq (sk : Vector Word 8) (n : Vector Word 2) (i : Nat) :
    Salsa.streamByte sk n i =
      byte ((Salsa.keystreamBlock sk n (BitVec.ofNat 64 (i / 64)))[i % 64 / 4]'(by omega)) (i % 4) := by
  have hoff : (BitVec.ofNat 6 (i % 64)).toNat = i % 64 := by
    rw [BitVec.toNat_ofNat, Nat.mod_mod]
  simp only [streamByte, blockByte, hoff, Nat.mod_mod_of_dvd i (show 4 ∣ 64 by decide)]

theorem Salsa.encryptFrom_eq_mapIdx (sk : Vector Word 8) (n : Vector Word 2) (i : Nat) (m : List Byte) :
    Salsa.encryptFrom sk n i m = m.mapIdx fun j b => b ^^^ Salsa.streamByte sk n (i + j) := by
  induction m generalizing i with
  | nil => rfl
  | cons b m ih => simp only [encryptFrom, ih, List.mapIdx_cons, Nat.add_zero, Nat.add_right_comm i, Nat.add_assoc]

theorem Salsa.encrypt_eq_mapIdx (sk : Vector Word 8) (n : Vector Word 2) (m : List Byte) :
    Salsa.encrypt sk n m = m.mapIdx fun j b => b ^^^ Salsa.streamByte sk n j := by
  simp only [encrypt, encryptFrom_eq_mapIdx, Nat.zero_add]

theorem Salsa.getElem?_encrypt (sk : Vector Word 8) (n : Vector Word 2) (m : List Byte) (i : Nat) :
    (Salsa.encrypt sk n m)[i]? = m[i]?.map (· ^^^ Salsa.streamByte sk n i) := by
  rw [encrypt_eq_mapIdx, List.getElem?_mapIdx]

theorem Salsa.encrypt_encrypt (sk : Vector Word 8) (n : Vector Word 2) (m : List Byte) :
    Salsa.encrypt sk n (Salsa.encrypt sk n m) = m := by
  refine List.ext_getElem? fun i => ?_
  simp only [getElem?_encrypt, Option.map_map, Function.comp_def, BitVec.xor_assoc, BitVec.xor_self, BitVec.xor_zero,
    Option.map_id']

/-- Settles O44: encryption maps each byte at its place, and the same keystream byte twice is none. -/
theorem salsaEncryptCiphersByteByByte : Obligations.SalsaEncryptCiphersByteByByte := by
  intro sk n m
  refine ⟨?length, Salsa.encrypt_encrypt sk n m, fun i h => ?byte⟩
  case length => rw [Salsa.encrypt_eq_mapIdx, List.length_mapIdx]
  case byte =>
    rw [Salsa.getElem?_encrypt, List.getElem?_eq_getElem h, Option.map_some, Salsa.streamByte_eq]

end Sys2Proof.Machine
end

section
/-! The Salsa20 commands: what each writes, without a key and with one, and which leave the stream alone (R175 to
R180). -/

namespace Sys2Proof.Machine

open Host.Outcome (next)

/-! ## SALSA_KEY (R175) -/

theorem exec_salsaKey (s : State) : exec .salsaKey s = next ((s.latchSalsa s.salsa.skey).setErr .ok) := rfl

theorem readStatus_skeyed (s : State) : (readReg .status s).getLsbD 1 = s.salsa.skeyed :=
  have ⟨_, h, _⟩ := readStatus_fields s
  getLsbD_of_extractLsb'_one h

theorem readStatus_sstream (s : State) : (readReg .status s).getLsbD 2 = s.salsa.sstream :=
  have ⟨_, _, h, _⟩ := readStatus_fields s
  getLsbD_of_extractLsb'_one h

/-- Settles O39: the command is one latch, which sets SKEYED and clears the stream. -/
theorem salsaKeyLatchesAndCloses : Obligations.SalsaKeyLatchesAndCloses := by
  refine ⟨rfl, fun s t ht => ?status, exec_salsaKey⟩
  rw [readStatus_skeyed, eq_setErr_of_succeed ht, State.setErr_salsa, State.latchSalsa_skeyed]

/-! ## SALSA_QR and SALSA_HASH (R176, R177) -/

theorem exec_salsaHash (s : State) :
    exec .salsaHash s = next ((s.setShout (Salsa.hash s.salsa.shin)).setErr .ok) := rfl

theorem Salsa.getElem_hash (w : Vector Word 16) {i : Nat} (hi : i < 16) :
    (Salsa.hash w)[i] = (Nat.iterate Salsa.doubleRound 10 w)[i] + w[i] := by
  simp only [hash, Vector.getElem_ofFn]

/-- Settles O40: both commands write SHOUT, SALSA_QR its first four words one after the other. -/
theorem salsaTestPortsWriteShout : Obligations.SalsaTestPortsWriteShout := by
  obtain ⟨-, -, hvector⟩ := quarterRoundIsAsGiven
  refine ⟨rfl, rfl, hvector, fun s => ⟨⟨_, rfl, ?written, fun i hi => ?kept⟩, exec_salsaHash s,
    fun i => Salsa.getElem_hash _ i.isLt, ?zeros⟩⟩
  case written => simp
  case kept =>
    rw [Vector.getElem_set_ne _ _ (by omega), Vector.getElem_set_ne _ _ (by omega),
      Vector.getElem_set_ne _ _ (by omega), Vector.getElem_set_ne _ _ (by omega)]
  case zeros => decide +kernel

/-! ## SALSA_BLOCK and SALSA_START (R178, R179) -/

section Keyed

variable {s : State}

theorem exec_salsaBlock_keyed (h : s.salsa.skeyed = true) :
    exec .salsaBlock s = next ((s.setShout
      (Salsa.keystreamBlock s.salsa.sk s.salsa.snonce (blockCounter s.salsa.sbctr))).setErr .ok) :=
  if_pos h

theorem exec_salsaBlock_unkeyed (h : s.salsa.skeyed = false) : exec .salsaBlock s = next (s.setErr .nokey) :=
  if_neg (by simp [h])

theorem exec_salsaStart_keyed (h : s.salsa.skeyed = true) :
    exec .salsaStart s = next ((s.openStream s.salsa.snonce).setErr .ok) :=
  if_pos h

theorem exec_salsaStart_unkeyed (h : s.salsa.skeyed = false) : exec .salsaStart s = next (s.setErr .nokey) :=
  if_neg (by simp [h])

end Keyed

/-- The counter of SALSA_BLOCK as a number (R31). -/
theorem blockCounter_eq (b : Vector Word 2) :
    blockCounter b = BitVec.ofNat 64 (b[0].toNat + 2 ^ 32 * b[1].toNat) := by
  apply BitVec.eq_of_toNat_eq
  simp only [blockCounter, BitVec.toNat_add, BitVec.toNat_setWidth, BitVec.toNat_shiftLeft, BitVec.toNat_ofNat,
    Nat.shiftLeft_eq]
  omega

/-- Settles O41: with a key the commands are a write of SHOUT and the opening of a stream, whose nonce is no
register. -/
theorem salsaBlockAndStartNeedAKey : Obligations.SalsaBlockAndStartNeedAKey := by
  refine ⟨rfl, rfl, by decide +kernel, fun s =>
    ⟨fun hkey => ⟨?block, exec_salsaStart_keyed hkey, fun t ht => ?opened⟩,
      fun hkey => ⟨exec_salsaBlock_unkeyed hkey, exec_salsaStart_unkeyed hkey⟩⟩⟩
  case block =>
    rw [← blockCounter_eq]
    exact exec_salsaBlock_keyed hkey
  case opened =>
    obtain rfl := Host.Outcome.next.inj ((exec_salsaStart_keyed hkey).symm.trans ht)
    exact ⟨readStatus_sstream _, fun _ _ => rfl⟩

/-! ## SALSA_XOR (R180) -/

theorem exec_salsaXor_closed {s : State} (h : s.salsa.sstream = false) :
    exec .salsaXor s = next (s.setErr .nostream) :=
  if_pos h

theorem exec_salsaXor_exhausted {s : State} (h : s.salsa.sstream = true) (h' : s.salsa.sexh = true) :
    exec .salsaXor s = next (s.setErr .exhausted) :=
  (if_neg (by simp [h])).trans (if_pos h')

/-- The three moves of the position as one: the offset is a number of 6 bits, which after 63 is 0 (R180). -/
theorem advanceStream_eq (s : State) : advanceStream s =
    s.setPosition (if s.salsa.off = 63 ∧ s.salsa.bc ≠ BitVec.allOnes 64 then s.salsa.bc + 1 else s.salsa.bc)
      (s.salsa.off + 1) (if s.salsa.off = 63 ∧ s.salsa.bc = BitVec.allOnes 64 then true else s.salsa.sexh) := by
  by_cases hoff : s.salsa.off = 63
  · by_cases hbc : s.salsa.bc = BitVec.allOnes 64
    · rw [advanceStream_last s hoff hbc, if_neg fun h => h.2 hbc, if_pos ⟨hoff, hbc⟩, hoff]
      rfl
    · rw [advanceStream_next s hoff hbc, if_pos ⟨hoff, hbc⟩, if_neg fun h => hbc h.2, hoff]
      rfl
  · rw [advanceStream_inside s hoff, if_neg fun h => hoff h.1, if_neg fun h => hoff h.1]

/-- Settles O42: SALSA_XOR is a refill, a write of SDOUT and one of three moves of the position. -/
theorem salsaXorCiphersOneByte : Obligations.SalsaXorCiphersOneByte := by
  refine ⟨rfl, by decide +kernel, fun s => ⟨exec_salsaXor_closed, fun hinv hopen => ?keyed, exec_salsaXor_exhausted,
    fun hopen hfresh => ?cipher⟩⟩
  case keyed =>
    by_contra hkey
    obtain ⟨-, hclosed⟩ := hinv.salsa.unkeyed (Bool.eq_false_iff.2 hkey)
    exact Bool.noConfusion (hopen.symm.trans hclosed)
  case cipher =>
    -- The window by a name of its own, so that no defeq check computes the block.
    obtain ⟨ks, hks⟩ : ∃ ks, ks = if s.salsa.off = 0
      then Salsa.keystreamBlock s.salsa.sk s.salsa.nl s.salsa.bc else s.salsa.ks := ⟨_, rfl⟩
    have hxor := execSalsaXor_open s ks _ hopen hfresh hks.symm rfl
    rw [advanceStream_eq] at hxor
    refine ⟨ks, _, hks, hxor, rfl, fun _ => rfl, fun hoff => ?inside, fun hoff hbc => ?next, fun hoff hbc => ?last⟩
    case inside => exact ⟨if_neg fun h => hoff h.1, (if_neg fun h => hoff h.1).trans hfresh⟩
    case next => exact ⟨if_pos ⟨hoff, hbc⟩, (if_neg fun h => hbc h.2).trans hfresh⟩
    case last => exact ⟨if_neg fun h => h.2 hbc, if_pos ⟨hoff, hbc⟩⟩

/-! ## The commands that leave the stream (R181, R278) -/

/-- The three other ciphering commands write SHOUT and ERR. -/
theorem exec_shout_only {i : Instr} {s t : State} (hi : i = .salsaQr ∨ i = .salsaHash ∨ i = .salsaBlock)
    (h : exec i s = next t) : t.salsa = { s.salsa with shout := t.salsa.shout } := by
  obtain rfl | rfl | rfl := hi
  · rw [eq_setErr_of_succeed h]; rfl
  · rw [eq_setErr_of_succeed h]; rfl
  · cases hkey : s.salsa.skeyed with
    | true => rw [← Host.Outcome.next.inj ((exec_salsaBlock_keyed hkey).symm.trans h)]; rfl
    | false => rw [← Host.Outcome.next.inj ((exec_salsaBlock_unkeyed hkey).symm.trans h)]; rfl

/-- A command that is not of the Salsa20 engine keeps it, SRST apart (R254). -/
theorem exec_other_salsa {i : Instr} {s t : State} (hi : i.family ≠ .salsa) (hsrst : i ≠ .srst)
    (h : exec i s = next t) : t.salsa = s.salsa := by
  cases hfamily : i.family with
  | salsa => exact absurd hfamily hi
  | mars =>
    obtain ⟨_, _, rfl⟩ := exec_mars_shape i s t hfamily h
    rfl
  | trivium =>
    obtain ⟨_, _, rfl⟩ := exec_triv_shape i s t hfamily h
    rfl
  | control =>
    cases i with
    | nop => rw [eq_setErr_of_succeed h, State.setErr_salsa]
    | srst => exact absurd rfl hsrst
    | _ => cases hfamily

/-- Settles O45: the other engines' commands keep the whole Salsa20 engine, and the three left of its own write
SHOUT. -/
theorem otherCommandsLeaveTheStream : Obligations.OtherCommandsLeaveTheStream := by
  intro i s t hkey hstart hxor hsrst h
  obtain ⟨shout, hsalsa⟩ : ∃ shout, t.salsa = { s.salsa with shout := shout } := by
    by_cases hfamily : i.family = .salsa
    · refine ⟨_, exec_shout_only ?_ h⟩
      cases i with
      | salsaQr => exact .inl rfl
      | salsaHash => exact .inr (.inl rfl)
      | salsaBlock => exact .inr (.inr rfl)
      | salsaKey => exact absurd rfl hkey
      | salsaStart => exact absurd rfl hstart
      | salsaXor => exact absurd rfl hxor
      | _ => cases hfamily
    · exact ⟨s.salsa.shout, exec_other_salsa hfamily hsrst h⟩
  rw [hsalsa]
  exact ⟨rfl, rfl, rfl, rfl, rfl, rfl, rfl, rfl⟩

end Sys2Proof.Machine
end

section
/-! The host's stream sequence: the engine at byte `i` of a stream, one byte through the port, and a whole message
(R181). -/

namespace Sys2Proof.Machine

open Host.Outcome (next)

/-! ## The engine at a byte of a stream -/

/-- An open stream under a key and a nonce that has come to byte `i` (R34, R179, R180). -/
structure SalsaState.StreamAt (m : SalsaState) (sk : Vector Word 8) (n : Vector Word 2) (i : Nat) : Prop where
  opened : m.sstream = true
  fresh : m.sexh = false
  key : m.sk = sk
  nonce : m.nl = n
  counter : m.bc = BitVec.ofNat 64 (i / 64)
  offset : m.off = BitVec.ofNat 6 (i % 64)
  window : i % 64 ≠ 0 → m.ks = Salsa.keystreamBlock sk n (BitVec.ofNat 64 (i / 64))

section Stream

variable {sk : Vector Word 8} {n : Vector Word 2} {i : Nat}

/-- SALSA_START comes to byte 0, where the window asks nothing (R179). -/
theorem State.openStream_streamAt {s : State} {nonce : Vector Word 2} (hsk : s.salsa.sk = sk) (hn : nonce = n) :
    (s.openStream nonce).salsa.StreamAt sk n 0 where
  opened := rfl
  fresh := rfl
  key := hsk
  nonce := hn
  counter := rfl
  offset := rfl
  window := absurd rfl

/-- The position moves on by one byte; before byte 2^70 - 1 the counter is not its last value (R180). -/
theorem advanceStream_of_streamAt {s : State} (hat : s.salsa.StreamAt sk n i) (hi : i + 1 < 2 ^ 70) :
    advanceStream s = s.setPosition (BitVec.ofNat 64 ((i + 1) / 64)) (BitVec.ofNat 6 ((i + 1) % 64)) false := by
  have hoff : s.salsa.off = 63 ↔ i % 64 = 63 := by
    rw [hat.offset, ← BitVec.toNat_inj]
    simp
  by_cases hend : i % 64 = 63
  · have hbc : s.salsa.bc ≠ BitVec.allOnes 64 := by
      rw [hat.counter, ne_eq, ← BitVec.toNat_inj, BitVec.toNat_ofNat, BitVec.toNat_allOnes]
      omega
    rw [advanceStream_next s (hoff.2 hend) hbc, hat.counter, hat.fresh, show (i + 1) / 64 = i / 64 + 1 by omega,
      show (i + 1) % 64 = 0 by omega, BitVec.ofNat_add]
    rfl
  · rw [advanceStream_inside s (hend ∘ hoff.1), hat.counter, hat.offset, hat.fresh,
      show (i + 1) / 64 = i / 64 by omega, show (i + 1) % 64 = i % 64 + 1 by omega, BitVec.ofNat_add]
    rfl

/-- SALSA_XOR at byte `i` ciphers it with that byte of the stream and comes to the next (R180). -/
theorem exec_salsaXor_of_streamAt {s : State} (hat : s.salsa.StreamAt sk n i) (hi : i + 1 < 2 ^ 70) :
    ∃ t, exec .salsaXor s = next t ∧ t.err = .ok ∧ t.salsa.StreamAt sk n (i + 1) ∧
      t.salsa.sdout = zext32 (messageByte s.salsa.sdin ^^^ Salsa.streamByte sk n i) := by
  -- The window by a name of its own, so that no defeq check computes the block.
  obtain ⟨ks, hks⟩ : ∃ ks, ks = Salsa.keystreamBlock sk n (BitVec.ofNat 64 (i / 64)) := ⟨_, rfl⟩
  have hwindow : (if s.salsa.off = 0 then Salsa.keystreamBlock s.salsa.sk s.salsa.nl s.salsa.bc
      else s.salsa.ks) = ks := by
    rw [hat.key, hat.nonce, hat.counter, ← hks]
    split
    case isTrue => rfl
    case isFalse hoff =>
      refine (hat.window fun hzero => hoff ?_).trans hks.symm
      rw [hat.offset, hzero]
      rfl
  have hout : zext32 (messageByte s.salsa.sdin ^^^ blockByte ks s.salsa.off) =
      zext32 (messageByte s.salsa.sdin ^^^ Salsa.streamByte sk n i) := by
    rw [hat.offset, hks, Salsa.streamByte]
  have hxor := execSalsaXor_open s ks _ hat.opened hat.fresh hwindow hout
  generalize zext32 (messageByte s.salsa.sdin ^^^ Salsa.streamByte sk n i) = out at hxor ⊢
  have hciphered : ((s.setKs ks).setSdout out).salsa.StreamAt sk n i := { hat with window := fun _ => hks }
  rw [advanceStream_of_streamAt hciphered hi] at hxor
  refine ⟨_, hxor, rfl, { hciphered with fresh := rfl, counter := rfl, offset := rfl, window := fun hin => ?_ }, rfl⟩
  rw [show (i + 1) / 64 = i / 64 by omega]
  exact hks

/-! ## One byte through the port -/

/-- An access with its answer, before a sequence with its answers. -/
theorem serveAll_cons_eq_some {a : Access} {as : List Access} {r : Response} {rs : List Response} {s t u : State}
    (ha : serve a s = next t) (hr : t.response = some r) (has : serveAll as t = some (rs, u)) :
    serveAll (a :: as) s = some (r :: rs, u) := by
  rw [serveAll_cons a as s t ha, has, Option.map_some, hr]
  rfl

theorem serveAll_singleton_eq_some {a : Access} {r : Response} {s t : State} (ha : serve a s = next t)
    (hr : t.response = some r) : serveAll [a] s = some ([r], t) :=
  serveAll_cons_eq_some ha hr rfl

theorem writeReg_sdin_streamAt {s : State} (hat : s.salsa.StreamAt sk n i) (v : Word) :
    (writeReg .sdin v s).salsa.StreamAt sk n i := { hat with }

/-- SDIN written, SALSA_XOR and SDOUT read: one byte of the host's loop (R181). -/
theorem serveAll_xor_byte {s : State} (hat : s.salsa.StreamAt sk n i) (hi : i + 1 < 2 ^ 70) (b : Byte) :
    ∃ t, serveAll [.memWrite (Reg.addr .sdin) (zext32 b), .memWrite 0x008 (encode .salsaXor),
        .memRead (Reg.addr .sdout)] s =
        some ([.done, .done, .data ((b ^^^ Salsa.streamByte sk n i).setWidth 32)], t) ∧
      t.err = .ok ∧ t.salsa.StreamAt sk n (i + 1) := by
  have hwrite := serve_memWrite .sdin (zext32 b) s nofun
  generalize hu : (writeReg .sdin (zext32 b) s).respond (some .done) = u at hwrite
  have hatu : u.salsa.StreamAt sk n i := hu ▸ writeReg_sdin_streamAt hat _
  have hbyte : messageByte u.salsa.sdin = b := hu ▸ messageByte_zext32_masked b
  obtain ⟨t, ht, herr, hatt, hout⟩ := exec_salsaXor_of_streamAt hatu hi
  have hcmd := serve_command (encode .salsaXor) u t ((runCommand_of_decode _ .salsaXor u rfl).trans ht)
  have hread : readReg .sdout (t.respond (some .done)) = (b ^^^ Salsa.streamByte sk n i).setWidth 32 := by
    rw [readReg_respond, ← hbyte, ← zext32_masked, ← hout]
    rfl
  have hanswer := hread ▸ serve_memRead .sdout (t.respond (some .done))
  have hrest := serveAll_cons_eq_some hcmd rfl (serveAll_singleton_eq_some hanswer rfl)
  exact ⟨_, serveAll_cons_eq_some hwrite (hu ▸ rfl) hrest, herr, hatt⟩

/-! ## A whole message -/

theorem xorLoop_cons (din dout : Reg) (c : Instr) (b : Byte) (m : List Byte) :
    xorLoop din dout c (b :: m) =
      [.memWrite din.addr (zext32 b), .memWrite 0x008 (encode c), .memRead dout.addr] ++ xorLoop din dout c m := rfl

/-- The host's loop from byte `i` of a stream reads out the rest of the encryption (R181). -/
theorem serveAll_xorLoop (m : List Byte) {s : State} (herr : s.err = .ok) (hat : s.salsa.StreamAt sk n i)
    (hlen : i + m.length < 2 ^ 70) :
    ∃ rs t, serveAll (xorLoop .sdin .sdout .salsaXor m) s = some (rs, t) ∧
      readData rs = (Salsa.encryptFrom sk n i m).map (fun b => b.setWidth 32) ∧ t.err = .ok := by
  induction m generalizing i s with
  | nil => exact ⟨[], s, rfl, rfl, herr⟩
  | cons b m ih =>
    rw [List.length_cons] at hlen
    obtain ⟨u, hu, herru, hatu⟩ := serveAll_xor_byte hat (by omega) b
    obtain ⟨rs, t, hserve, hdata, herrt⟩ := ih herru hatu (by omega)
    refine ⟨[.done, .done, .data ((b ^^^ Salsa.streamByte sk n i).setWidth 32)] ++ rs, t, ?_, ?_, herrt⟩
    · rw [xorLoop_cons, serveAll_append, hu, Option.bind_some, hserve, Option.map_some]
    · rw [readData_append, hdata]
      rfl

end Stream

theorem serve_write_snonce (i : Fin 2) (w : Word) (s : State) :
    ∃ t, serve (.memWrite (Reg.addr (.snonce i)) w) s = next t ∧ t.response = some .done ∧
      t.salsa = { s.salsa with snonce := s.salsa.snonce.set i.val w } := by
  refine ⟨_, serve_memWrite (.snonce i) w s nofun, rfl, ?_⟩
  rw [State.respond_salsa, writeReg, Reg.mask, and_full_mask]

theorem set_both_words (u : Vector Word 2) (w0 w1 : Word) : (u.set 0 w0).set 1 w1 = #v[w0, w1] := by
  ext i hi
  obtain rfl | rfl : i = 0 ∨ i = 1 := by omega
  all_goals simp

/-- The nonce written over the bus and SALSA_START open the stream under the latched key at byte 0 (R179, R181). -/
theorem serveAll_open_stream {s : State} (hkey : s.salsa.skeyed = true) (n0 n1 : Word) :
    ∃ t, serveAll [.memWrite 0x220 n0, .memWrite 0x224 n1, .memWrite 0x008 0x00000024] s =
        some ([.done, .done, .done], t) ∧
      t.err = .ok ∧ t.salsa.StreamAt s.salsa.sk #v[n0, n1] 0 := by
  obtain ⟨s0, hs0, hdone0, hsalsa0⟩ := serve_write_snonce 0 n0 s
  obtain ⟨s1, hs1, hdone1, hsalsa1⟩ := serve_write_snonce 1 n1 s0
  have hkey1 : s1.salsa.skeyed = true := by rw [hsalsa1, hsalsa0, hkey]
  have hsk : s1.salsa.sk = s.salsa.sk := by rw [hsalsa1, hsalsa0]
  have hnonce : s1.salsa.snonce = #v[n0, n1] := by
    rw [hsalsa1, hsalsa0]
    exact set_both_words s.salsa.snonce n0 n1
  have hstart := serve_command 0x00000024 s1 _
    ((runCommand_of_decode _ .salsaStart s1 rfl).trans (exec_salsaStart_keyed hkey1))
  have hrest := serveAll_cons_eq_some hs1 hdone1 (serveAll_singleton_eq_some hstart rfl)
  exact ⟨_, serveAll_cons_eq_some hs0 hdone0 hrest, rfl, State.openStream_streamAt hsk hnonce⟩

/-- Settles O43: the opening comes to byte 0, each turn of the loop to the next byte, and the other ciphering commands
write SHOUT alone. -/
theorem salsaStreamIsSalsaEncrypt : Obligations.SalsaStreamIsSalsaEncrypt := by
  intro s n0 n1 m hkey hlen
  obtain ⟨u, hopen, herru, hatu⟩ := serveAll_open_stream hkey n0 n1
  obtain ⟨rs, t, hserve, hdata, herrt⟩ := serveAll_xorLoop m herru hatu (by omega)
  refine ⟨[.done, .done, .done] ++ rs, t, ?_, hdata, herrt, fun _ _ _ => exec_shout_only⟩
  rw [serveAll_append, hopen, Option.bind_some, hserve, Option.map_some]

end Sys2Proof.Machine
end

section
/-! The Trivium registers by positions and by storage bytes: the shift and the load (R201, R202, R210). -/

namespace Sys2Proof.Machine

/-! ## The shift (R201, R202) -/

/-- The storage mapping of a position (R201). -/
theorem Triv.bit_eq_storageByte {n : Nat} (r : BitVec n) {p : Nat} (hp : 1 ≤ p) :
    Triv.bit r p = (Triv.storageByte r ((p - 1) / 8)).getLsbD (7 - (p - 1) % 8) := by
  rw [storageByte_getLsbD r _ _ (by omega), Triv.bit]
  congr 1
  omega

theorem Triv.shiftIn_getLsbD_zero {n : Nat} (r : BitVec n) (f : Bool) (hn : 0 < n) :
    (Triv.shiftIn r f).getLsbD 0 = f := by
  rw [shiftIn_getLsbD r f 0 hn, if_pos rfl]

theorem Triv.shiftIn_getLsbD_succ {n : Nat} (r : BitVec n) (f : Bool) {q : Nat} (hq : q + 1 < n) :
    (Triv.shiftIn r f).getLsbD (q + 1) = r.getLsbD q := by
  rw [shiftIn_getLsbD r f _ (by omega), if_neg (Nat.succ_ne_zero q), decide_eq_true hq, Bool.true_and,
    Nat.add_sub_cancel]

/-- A significant storage bit after a shift is the one a position before it, in the same byte or in the last. -/
theorem Triv.storageByte_shiftIn_getLsbD {n : Nat} (r : BitVec n) (f : Bool) {k m k' m' : Nat} (hm : m < 8)
    (hm' : m' < 8) (hnext : 8 * k + 7 - m = 8 * k' + 7 - m' + 1) (hlt : 8 * k + 7 - m < n) :
    (Triv.storageByte (Triv.shiftIn r f) k).getLsbD m = (Triv.storageByte r k').getLsbD m' := by
  rw [storageByte_getLsbD _ k m hm, storageByte_getLsbD r k' m' hm', hnext, Triv.shiftIn_getLsbD_succ r f (hnext ▸ hlt)]

/-- Settles O46: bit `q` of a vector is position `q + 1` and bit `7 - q % 8` of byte `q / 8`, and the shift moves bit
`q` to bit `q + 1`. -/
theorem shiftMovesEveryBitOnePlace : Obligations.ShiftMovesEveryBitOnePlace := by
  intro n r f hn
  refine ⟨fun p hp _ => Triv.bit_eq_storageByte r hp, Triv.shiftIn_getLsbD_zero r f hn, fun p hp hpn => ?position,
    ?first, fun k hk => ?acrossBytes, fun k m hm hlt => ?insideByte⟩
  case position =>
    obtain ⟨q, rfl⟩ := Nat.exists_eq_add_of_le' hp
    exact Triv.shiftIn_getLsbD_succ r f hpn
  case first => rw [storageByte_getLsbD _ 0 7 (by omega), Triv.shiftIn_getLsbD_zero r f hn]
  case acrossBytes =>
    exact Triv.storageByte_shiftIn_getLsbD r f (by omega) (by omega) (by omega) (by omega)
  case insideByte =>
    exact Triv.storageByte_shiftIn_getLsbD r f (by omega) (by omega) (by omega) hlt

/-! ## The load (R210) -/

/-- The inner loop of the load: bits `m` of one byte's places, `m` from 0 up. -/
theorem Triv.getLsbD_loadByte {n : Nat} (r : BitVec n) (k j : Nat) (v : Nat → Bool) {q : Nat} (hq : q < n) :
    ((List.range j).foldl (fun r m => Triv.setBit r (8 * k + m + 1) (v m)) r).getLsbD q =
      if 8 * k ≤ q ∧ q < 8 * k + j then v (q - 8 * k) else r.getLsbD q := by
  induction j with
  | zero => rw [if_neg (by omega)]; rfl
  | succ j ih =>
    rw [List.range_succ, List.foldl_append, List.foldl_cons, List.foldl_nil, setBit_getLsbD, Nat.add_sub_cancel, ih]
    by_cases hlast : q = 8 * k + j
    · rw [if_pos ⟨hlast, hq⟩, if_pos (by omega), hlast, Nat.add_sub_cancel_left]
    · have hbelow : q < 8 * k + j ↔ q < 8 * k + (j + 1) := by omega
      rw [if_neg (hlast ·.1), if_congr (and_congr_right fun _ => hbelow) rfl rfl]

/-- The outer loop of the load, over some of the bytes: a position of one of them holds its bit of the byte, any other
position its old bit. -/
theorem Triv.getLsbD_loadBytes {n : Nat} (b : Vector Byte 10) (ks : List (Fin 10)) (r : BitVec n) {q : Nat}
    (hq : q < n) :
    (ks.foldl (fun r k => (List.range 8).foldl
        (fun r m => Triv.setBit r (8 * k.val + m + 1) (b[k.val].getLsbD (7 - m))) r) r).getLsbD q =
      if h : ∃ k ∈ ks, k.val = q / 8 then (b[q / 8]'(by obtain ⟨k, -, hk⟩ := h; omega)).getLsbD (7 - q % 8)
      else r.getLsbD q := by
  induction ks generalizing r with
  | nil => rw [dif_neg nofun]; rfl
  | cons k ks ih =>
    rw [List.foldl_cons, ih, Triv.getLsbD_loadByte r k.val 8 _ hq]
    by_cases hks : ∃ k' ∈ ks, k'.val = q / 8
    · rw [dif_pos hks, dif_pos (hks.imp fun _ h => ⟨.tail _ h.1, h.2⟩)]
    · rw [dif_neg hks]
      by_cases hk : k.val = q / 8
      · rw [if_pos (by omega), dif_pos ⟨k, .head _, hk⟩]
        simp only [hk, show q - 8 * (q / 8) = q % 8 by omega]
      · rw [if_neg (by omega), dif_neg]
        rintro ⟨k', hmem, hk'⟩
        obtain rfl | hmem := List.mem_cons.1 hmem
        · exact hk hk'
        · exact hks ⟨k', hmem, hk'⟩

/-- The ten loaded bytes, as positions: byte `k` fills positions `8k + 1` to `8k + 8`, its bit 7 first. -/
theorem Triv.bit_load80 {n : Nat} (hn : 80 ≤ n) (b : Vector Byte 10) {k m : Nat} (hk : k < 10) (hm : m < 8) :
    Triv.bit (Triv.load80 n b) (8 * k + m + 1) = b[k].getLsbD (7 - m) := by
  rw [Triv.bit, Nat.add_sub_cancel, Triv.load80, Triv.getLsbD_loadBytes b _ _ (by omega),
    dif_pos ⟨⟨k, hk⟩, List.mem_finRange _, show k = _ by omega⟩]
  simp only [show (8 * k + m) / 8 = k by omega, show (8 * k + m) % 8 = m by omega]

/-- The positions beyond the ten bytes (D26). -/
theorem Triv.bit_load80_above (n : Nat) (b : Vector Byte 10) {p : Nat} (hp : 81 ≤ p) :
    Triv.bit (Triv.load80 n b) p = false := by
  by_cases hq : p - 1 < n
  · rw [Triv.bit, Triv.load80, Triv.getLsbD_loadBytes b _ _ hq, dif_neg (by rintro ⟨k, -, hk⟩; omega)]
    exact BitVec.getLsbD_zero
  · exact BitVec.getLsbD_of_ge _ _ (by omega)

theorem Triv.storageByte_load80 {n : Nat} (hn : 80 ≤ n) (b : Vector Byte 10) {k : Nat} (hk : k < 10) :
    Triv.storageByte (Triv.load80 n b) k = b[k] := by
  apply BitVec.eq_of_getLsbD_eq
  intro m hm
  have hbit := Triv.bit_load80 hn b hk (show 7 - m < 8 by omega)
  rw [Triv.bit, show 8 * k + (7 - m) + 1 - 1 = 8 * k + 7 - m by omega, show 7 - (7 - m) = m by omega] at hbit
  rw [storageByte_getLsbD _ k m hm, hbit]

/-- Settles O50: R1 and R2 are loads of ten bytes each, and R3 is one assignment to a register of zeros. -/
theorem loadIsAsGiven : Obligations.LoadIsAsGiven := by
  intro iv key
  refine ⟨fun k m hk hm => ⟨Triv.bit_load80 (by omega) iv hk hm, Triv.bit_load80 (by omega) key hk hm⟩,
    fun p hp _ => Triv.bit_load80_above 93 iv hp, fun p hp _ => Triv.bit_load80_above 84 key hp, fun p hp hp' => ?r3,
    fun k => ⟨Triv.storageByte_load80 (by omega) iv k.isLt, Triv.storageByte_load80 (by omega) key k.isLt⟩⟩
  rw [Triv.bit, Triv.load, setBit_getLsbD]
  by_cases h : p = 111
  · rw [if_pos (by omega), decide_eq_true h]
  · rw [if_neg (by omega), decide_eq_false h]
    exact BitVec.getLsbD_zero

end Sys2Proof.Machine
end

section
/-! Trivium clocks: what one clock does, and what any number of clocks, a byte and a message do to the registers and to
the output (R203 to R209, R213, R214). -/

namespace Sys2Proof.Machine

/-! ## The registers (R206, R207) -/

/-- Settles O47: the definitions of R203 to R207 put together; position `p` is bit `p - 1`. -/
theorem clockIsAsGiven : Obligations.ClockIsAsGiven :=
  ⟨rfl, fun _ => ⟨rfl, rfl, fun _ => rfl⟩⟩

/-- A clock's register update does not ask for the output form (R207). -/
theorem Triv.clocks_form_irrelevant (form form' : ZForm) : Triv.clocks form = Triv.clocks form' := rfl

theorem Triv.clocks_succ (form : ZForm) (n : Nat) (r : TrivRegs) :
    Triv.clocks form (n + 1) r = Triv.clocks form n (Triv.clock form r).1 := rfl

theorem Triv.clocks_succ' (form : ZForm) (n : Nat) (r : TrivRegs) :
    Triv.clocks form (n + 1) r = (Triv.clock form (Triv.clocks form n r)).1 :=
  Function.iterate_succ_apply' _ n r

theorem Triv.clocks_add (form : ZForm) (m n : Nat) (r : TrivRegs) :
    Triv.clocks form (m + n) r = Triv.clocks form m (Triv.clocks form n r) :=
  Function.iterate_add_apply _ m n r

theorem Triv.iterate_clockInto_fst (form : ZForm) (n : Nat) (r : TrivRegs) (v : Byte) :
    ((Triv.clockInto form)^[n] (r, v)).1 = Triv.clocks form n r := by
  induction n with
  | zero => rfl
  | succ n ih => rw [Function.iterate_succ_apply', Triv.clocks_succ', ← ih]; rfl

theorem Triv.clockByte_fst (form : ZForm) (r : TrivRegs) : (Triv.clockByte form r).1 = Triv.clocks form 8 r :=
  Triv.iterate_clockInto_fst form 8 r 0

theorem Triv.encrypt_cons (form : ZForm) (b : Byte) (m : List Byte) (r : TrivRegs) :
    Triv.encrypt form (b :: m) r =
      ((b ^^^ (Triv.clockByte form r).2) :: (Triv.encrypt form m (Triv.clockByte form r).1).1,
        (Triv.encrypt form m (Triv.clockByte form r).1).2) := rfl

/-- A message moves the registers eight clocks for each of its bytes, whatever the bytes are. -/
theorem Triv.encrypt_snd (form : ZForm) (m : List Byte) (r : TrivRegs) :
    (Triv.encrypt form m r).2 = Triv.clocks form (8 * m.length) r := by
  induction m generalizing r with
  | nil => rfl
  | cons b m ih =>
    rw [Triv.encrypt_cons, ih, Triv.clockByte_fst, ← Triv.clocks_add, List.length_cons, Nat.mul_succ]

/-- Settles O48: a byte, a message and the construction are each a number of clocks to the registers. -/
theorem outputFormNeverChangesTheRegisters : Obligations.OutputFormNeverChangesTheRegisters := by
  refine fun r => ⟨fun n => ?clocks, fun m => ?message, fun iv key => ?construction⟩
  case clocks => rw [Triv.clocks_form_irrelevant .doc .estream]
  case message => rw [Triv.encrypt_snd, Triv.encrypt_snd, Triv.clocks_form_irrelevant .doc .estream]
  case construction => rw [Triv.construct, Triv.construct, Triv.clocks_form_irrelevant .doc .estream]

/-! ## The output byte (R209) -/

/-- One clock of `clock_byte` shifts its output into the byte as a register shifts in its feedback. -/
theorem Triv.clockInto_snd (form : ZForm) (rv : TrivRegs × Byte) :
    (Triv.clockInto form rv).2 = Triv.shiftIn rv.2 (Triv.clock form rv.1).2 := rfl

/-- After `n` clocks of `clock_byte` bit `m` is the output of the clock that `m` clocks have followed. -/
theorem Triv.iterate_clockInto_getLsbD (form : ZForm) (r : TrivRegs) (v : Byte) {m n : Nat} (hm : m < 8) (hmn : m < n) :
    ((Triv.clockInto form)^[n] (r, v)).2.getLsbD m = (Triv.clock form (Triv.clocks form (n - 1 - m) r)).2 := by
  induction n generalizing m with
  | zero => omega
  | succ n ih =>
    rw [Function.iterate_succ_apply', Triv.clockInto_snd, Triv.iterate_clockInto_fst]
    cases m with
    | zero => exact Triv.shiftIn_getLsbD_zero _ _ (by omega)
    | succ m =>
      rw [Triv.shiftIn_getLsbD_succ _ _ hm, ih (by omega) (by omega), show n + 1 - 1 - (m + 1) = n - 1 - m by omega]

/-- The output of clock `j + 1` is bit `7 - j` of the byte (R209). -/
theorem Triv.clockByte_snd_getLsbD (form : ZForm) (r : TrivRegs) {j : Nat} (hj : j < 8) :
    (Triv.clockByte form r).2.getLsbD (7 - j) = (Triv.clock form (Triv.clocks form j r)).2 := by
  rw [Triv.clockByte, Triv.iterate_clockInto_getLsbD form r 0 (by omega) (by omega), show 8 - 1 - (7 - j) = j by omega]

/-- Settles O49: each clock shifts its bit in at the low end, so seven later clocks bring the first bit to the top. -/
theorem byteIsEightBitsFirstHighest : Obligations.ByteIsEightBitsFirstHighest := fun form r =>
  ⟨fun _ hj => Triv.clockByte_snd_getLsbD form r hj, Triv.clockByte_fst form r⟩

/-! ## Decryption (R214) -/

theorem Triv.length_encrypt (form : ZForm) (m : List Byte) (r : TrivRegs) :
    (Triv.encrypt form m r).1.length = m.length := by
  induction m generalizing r with
  | nil => rfl
  | cons b m ih => rw [Triv.encrypt_cons, List.length_cons, List.length_cons, ih]

theorem Triv.encrypt_encrypt_fst (form : ZForm) (m : List Byte) (r : TrivRegs) :
    (Triv.encrypt form (Triv.encrypt form m r).1 r).1 = m := by
  induction m generalizing r with
  | nil => rfl
  | cons b m ih =>
    rw [Triv.encrypt_cons, Triv.encrypt_cons, ih, BitVec.xor_assoc, BitVec.xor_self, BitVec.xor_zero]

/-- Settles O55: both runs give each byte the same key stream byte, and a ciphertext is as long as its message. -/
theorem triviumFreshInstanceDecrypts : Obligations.TriviumFreshInstanceDecrypts := by
  refine fun form m r => ⟨Triv.encrypt_encrypt_fst form m r, ?_⟩
  rw [Triv.encrypt_snd, Triv.encrypt_snd, Triv.length_encrypt]

end Sys2Proof.Machine
end

section
/-! The Trivium commands and the host's sequences of them (R211, R220 to R224). -/

namespace Sys2Proof.Machine

open Host.Outcome (next)

/-! ## Each command's next state -/

/-- TRIV_INIT constructs the registers from TIV and TKEY and ends in *producing* (R220). -/
theorem exec_trivInit (s : State) :
    exec .trivInit s = next (((s.setTrivRegs
      (Triv.construct .doc (trivBytes s.triv.tiv) (trivBytes s.triv.tkey))).setTState .producing).setErr .ok) := rfl

section Commands

variable {s : State}

theorem exec_trivClk_producing (h : s.triv.tstate = .producing) :
    exec .trivClk s = next (((s.setTrivRegs (Triv.clock .doc s.triv.regs).1).setTdout
      (zext32 (BitVec.ofBool (Triv.clock .doc s.triv.regs).2))).setErr .ok) :=
  execTrivClk_producing s _ h rfl

theorem exec_trivByte_producing (h : s.triv.tstate = .producing) :
    exec .trivByte s = next (((s.setTrivRegs (Triv.clockByte .doc s.triv.regs).1).setTdout
      (zext32 (Triv.clockByte .doc s.triv.regs).2)).setErr .ok) :=
  execTrivByte_producing s _ h rfl

theorem exec_trivXor_producing (h : s.triv.tstate = .producing) :
    exec .trivXor s = next (((s.setTrivRegs (Triv.clockByte .doc s.triv.regs).1).setTdout
      (zext32 (messageByte s.triv.tdin ^^^ (Triv.clockByte .doc s.triv.regs).2))).setErr .ok) :=
  execTrivXor_producing s _ h rfl

end Commands

theorem zext32_ofBool (b : Bool) : zext32 (BitVec.ofBool b) = if b then 1 else 0 := by
  cases b <;> rfl

/-- A zero-extended bit fits a register whose bits 31:8 are reserved. -/
theorem zext32_ofBool_masked (b : Bool) : zext32 (BitVec.ofBool b) &&& 0xFF = if b then 1 else 0 := by
  cases b <;> rfl

/-- Settles O51: the construction is the load of the bytes and the 1152 clocks. -/
theorem trivInitConstructsAfresh : Obligations.TrivInitConstructsAfresh := by
  refine ⟨rfl, fun s => (exec_trivInit s).trans ?_⟩
  simp only [Triv.construct, trivBytes, byte]
  -- Named, so that no defeq check runs the 1152 clocks.
  generalize Triv.clocks .doc 1152 _ = regs
  rfl

/-- Settles O52: in *producing* each command is a write of the registers and of TDOUT, and the guard of each raises in
the two other states. -/
theorem triviumClockCommandsWriteTdout : Obligations.TriviumClockCommandsWriteTdout := by
  refine ⟨rfl, rfl, rfl, fun s => ⟨fun h => ⟨?clk, exec_trivByte_producing h, exec_trivXor_producing h⟩,
    fun h => ⟨if_neg h, if_neg h, if_neg h⟩⟩⟩
  rw [exec_trivClk_producing h, zext32_ofBool]
  rfl

/-! ## TDOUT through the port -/

/-- A command's word and a read of TDOUT: the command's next state, with TDOUT as the answer (R36, R58). -/
theorem serveAll_command_tdout {v : Word} {i : Instr} {s t : State} (hv : decode v = .ok i) (ht : exec i s = next t) :
    serveAll [.memWrite 0x008 v, .memRead (Reg.addr .tdout)] s =
      some ([.done, .data (t.triv.tdout &&& 0xFF)], t.respond (some (.data (t.triv.tdout &&& 0xFF)))) :=
  serveAll_cons_eq_some (serve_command v s t ((runCommand_of_decode v i s hv).trans ht)) rfl
    (serveAll_singleton_eq_some (serve_memRead .tdout _) rfl)

/-- A sequence of accesses before another, each with its answers. -/
theorem serveAll_append_eq_some {as bs : List Access} {rs qs : List Response} {s t u : State}
    (has : serveAll as s = some (rs, t)) (hbs : serveAll bs t = some (qs, u)) :
    serveAll (as ++ bs) s = some (rs ++ qs, u) := by
  rw [serveAll_append, has, Option.bind_some, hbs, Option.map_some]

/-! ## Eight clocks through the port (R221) -/

/-- TRIV_CLK and a read of TDOUT: one clock and its bit. -/
theorem serveAll_trivClk {s : State} (h : s.triv.tstate = .producing) :
    ∃ t, serveAll [.memWrite 0x008 0x00000031, .memRead 0x324] s =
        some ([.done, .data (if (Triv.clock .doc s.triv.regs).2 then 1 else 0)], t) ∧
      t.triv.tstate = .producing ∧ t.triv.regs = (Triv.clock .doc s.triv.regs).1 := by
  have hserve := serveAll_command_tdout (v := 0x00000031) rfl (exec_trivClk_producing h)
  rw [State.setErr_triv, State.setTdout_tdout, zext32_ofBool_masked] at hserve
  exact ⟨_, hserve, h, rfl⟩

/-- TRIV_CLK and a read of TDOUT, `n` times over. -/
theorem serveAll_trivClks (n : Nat) {s : State} (h : s.triv.tstate = .producing) :
    ∃ rs u, serveAll (List.replicate n [Access.memWrite 0x008 0x00000031, .memRead 0x324]).flatten s = some (rs, u) ∧
      u.triv.regs = Triv.clocks .doc n s.triv.regs ∧
      readData rs = (List.range n).map fun j =>
        if (Triv.clock .doc (Triv.clocks .doc j s.triv.regs)).2 then 1 else 0 := by
  induction n generalizing s with
  | zero => exact ⟨[], s, rfl, rfl, rfl⟩
  | succ n ih =>
    obtain ⟨t, hfirst, hproducing, hregs⟩ := serveAll_trivClk h
    obtain ⟨rs, u, hrest, hregsu, hdata⟩ := ih hproducing
    refine ⟨_, u, serveAll_append_eq_some hfirst hrest, ?_, ?_⟩
    · rw [hregsu, hregs, Triv.clocks_succ]
    · rw [List.range_succ_eq_map, List.map_cons, List.map_map, readData_append, hdata, hregs]
      rfl

/-- Settles O53: the eight clocks are those of the byte, and each answer is one of its bits. -/
theorem eightClocksAreOneByte : Obligations.EightClocksAreOneByte := by
  intro s t h ht
  obtain rfl := Host.Outcome.next.inj ((exec_trivByte_producing h).symm.trans ht)
  obtain ⟨rs, u, hserve, hregs, hdata⟩ := serveAll_trivClks 8 h
  refine ⟨rs, u, hserve, hregs.trans (Triv.clockByte_fst .doc _).symm, hdata.trans (List.map_congr_left fun j hj => ?_)⟩
  have hlt : j < 8 := List.mem_range.1 hj
  rw [← Triv.clockByte_snd_getLsbD .doc s.triv.regs hlt, State.setErr_triv, State.setTdout_tdout, zext32,
    BitVec.getLsbD_setWidth, decide_eq_true (by omega), Bool.true_and]

/-! ## A message through the port (R224) -/

/-- TDIN written, TRIV_XOR and TDOUT read: one byte of the host's loop. -/
theorem serveAll_trivXor_byte {s : State} (h : s.triv.tstate = .producing) (b : Byte) :
    ∃ t, serveAll [.memWrite (Reg.addr .tdin) (zext32 b), .memWrite 0x008 (encode .trivXor),
        .memRead (Reg.addr .tdout)] s =
        some ([.done, .done, .data ((b ^^^ (Triv.clockByte .doc s.triv.regs).2).setWidth 32)], t) ∧
      t.err = .ok ∧ t.triv.tstate = .producing ∧ t.triv.regs = (Triv.clockByte .doc s.triv.regs).1 := by
  have hwrite := serve_memWrite .tdin (zext32 b) s nofun
  generalize hu : (writeReg .tdin (zext32 b) s).respond (some .done) = u at hwrite
  have hproducing : u.triv.tstate = .producing := hu ▸ h
  have hregs : u.triv.regs = s.triv.regs := hu ▸ rfl
  have hbyte : messageByte u.triv.tdin = b := hu ▸ messageByte_zext32_masked b
  have hcmd := serveAll_command_tdout (v := encode .trivXor) rfl (exec_trivXor_producing hproducing)
  rw [State.setErr_triv, State.setTdout_tdout, hbyte, hregs, zext32_masked] at hcmd
  exact ⟨_, serveAll_cons_eq_some hwrite (hu ▸ rfl) hcmd, rfl, hproducing, rfl⟩

/-- The host's loop in *producing* reads out the encryption from the registers it starts with. -/
theorem serveAll_trivXorLoop (m : List Byte) {s : State} (herr : s.err = .ok) (h : s.triv.tstate = .producing) :
    ∃ rs t, serveAll (xorLoop .tdin .tdout .trivXor m) s = some (rs, t) ∧
      readData rs = (Triv.encrypt .doc m s.triv.regs).1.map (fun b => b.setWidth 32) ∧
      t.triv.regs = (Triv.encrypt .doc m s.triv.regs).2 ∧ t.err = .ok := by
  induction m generalizing s with
  | nil => exact ⟨[], s, rfl, rfl, rfl, herr⟩
  | cons b m ih =>
    obtain ⟨u, hbyte, herru, hproducing, hregs⟩ := serveAll_trivXor_byte h b
    obtain ⟨rs, t, hrest, hdata, hregst, herrt⟩ := ih herru hproducing
    refine ⟨_, t, serveAll_append_eq_some hbyte hrest, ?_, ?_, herrt⟩
    · rw [readData_append, hdata, hregs, Triv.encrypt_cons]
      rfl
    · rw [hregst, hregs, Triv.encrypt_cons]

/-- TRIV_INIT through the port leaves freshly constructed registers in *producing* (R220). -/
theorem serve_trivInit (s : State) :
    ∃ t, serve (.memWrite 0x008 0x00000030) s = next t ∧ t.response = some .done ∧ t.err = .ok ∧
      t.triv.tstate = .producing ∧
      t.triv.regs = Triv.construct .doc (trivBytes s.triv.tiv) (trivBytes s.triv.tkey) := by
  have hserve := serve_command 0x00000030 s _ ((runCommand_of_decode _ .trivInit s rfl).trans (exec_trivInit s))
  generalize Triv.construct .doc (trivBytes s.triv.tiv) (trivBytes s.triv.tkey) = fresh at hserve ⊢
  exact ⟨_, hserve, rfl, rfl, rfl, rfl⟩

/-- Settles O54: TRIV_INIT leaves the freshly constructed registers, from which the loop ciphers byte by byte. -/
theorem triviumStreamIsTriviumEncrypt : Obligations.TriviumStreamIsTriviumEncrypt := by
  intro s m fresh
  obtain ⟨u, hinit, hdone, herru, hproducing, hfresh⟩ := serve_trivInit s
  obtain ⟨rs, t, hloop, hdata, hregs, herr⟩ := serveAll_trivXorLoop m herru hproducing
  rw [hfresh] at hdata hregs
  exact ⟨.done :: rs, t, serveAll_cons_eq_some hinit hdone hloop, hdata, hregs, herr⟩

end Sys2Proof.Machine
end

section
/-! What every step and every command ends in: a next state, an error of the command's own, and a change to one
engine (R241 to R243, R247, R254). -/

namespace Sys2Proof.Machine

open Host.Outcome (next)

/-! ## Every step answers (R247) -/

theorem serveNext_answers (s : State) : ∃ t, serveNext s = next t := by
  cases hport : s.port with
  | nil => exact ⟨_, serveNext_nil hport⟩
  | cons a rest =>
    rw [serveNext_cons hport]
    exact serve_answers a _

/-- Settles O8: an asserted reset answers by its definition, and a released step serves one access or none. -/
theorem everyStepAnswersANextState : Obligations.EveryStepAnswersANextState := by
  intro s
  obtain ⟨pins, hpins⟩ | ⟨pins, hpins⟩ := asserted_or_released s
  · exact ⟨_, step_asserted s pins hpins⟩
  · rw [step_released s pins hpins]
    exact serveNext_answers _

/-! ## MARS_KEY (R135, R243) -/

/-- The key words from `n` on are not read (R135). -/
theorem marsKeyWords_congr {key key' : Vector Word 14} {n : Nat}
    (h : ∀ i : Fin 14, i.val < n → key[i.val] = key'[i.val]) : marsKeyWords key n = marsKeyWords key' n := by
  refine List.ext_getElem (by simp [marsKeyWords]) fun i hi _ => ?_
  obtain ⟨hn, h14⟩ : i < n ∧ i < 14 := by simpa [marsKeyWords] using hi
  simpa [marsKeyWords] using h ⟨i, h14⟩ hn

/-- Settles O23: a legal length is one latch of the schedule of its words, and any other leaves the engine without a
key, where the two commands raise. -/
theorem marsKeyLatchesOrDiscards : Obligations.MarsKeyLatchesOrDiscards := by
  refine ⟨fun n hn => decode_encode_marsKey hn, fun n s => ⟨fun ⟨hlo, hhi⟩ => ⟨?latch, fun key hkey => ?others⟩,
    fun hn => ⟨_, rfl, execMarsKey_illegal hn s, execMarsEnc_unkeyed rfl, execMarsDec_unkeyed rfl⟩⟩⟩
  case latch =>
    have hlatch := execMarsKey_legal hlo hhi s
    rw [marsKeyWords] at hlatch
    -- Named, so that no defeq check computes the schedule.
    generalize Mars.keySchedule marsSbox _ = k at hlatch ⊢
    exact hlatch
  case others =>
    refine ⟨_, execMarsKey_legal hlo hhi _, ?_⟩
    rw [State.setErr_mars, State.latchMars_k, marsKeyWords_congr hkey, marsKeyWords]

/-! ## The errors of a command (R241, R242) -/

/-- A command that asks for a key, or for *producing*, writes ERR alone where it raises. -/
theorem ok_or_setErr_of_guarded {c : Prop} [Decidable c] {s u t : State} {code : ErrCode}
    (h : (if c then succeed u else raiseCmdError code s) = next t) : t.err = .ok ∨ t = s.setErr code := by
  split at h
  · exact .inl (eq_setErr_of_succeed h ▸ rfl)
  · exact .inr (Host.Outcome.next.inj h).symm

/-- All that a command can end in: OK, or an error of its own that leaves the rest as it was, but for the schedule that
MARS_KEY discards. -/
theorem exec_ok_or_raises {i : Instr} {s t : State} (h : exec i s = next t) :
    t.err = .ok ∨ i.mayRaise t.err = true ∧ (t = s.setErr t.err ∨
      ∃ n, i = .marsKey n ∧ t = (s.latchMars (.replicate 40 0) false 0).setErr .keylen) := by
  cases i with
  | nop | srst | marsS | marsS0 | marsS1 | marsMask | salsaKey | salsaQr | salsaHash | trivInit =>
    exact .inl (eq_setErr_of_succeed h ▸ rfl)
  | marsEnc | marsDec | salsaBlock | salsaStart | trivClk | trivByte | trivXor =>
    obtain hok | rfl := ok_or_setErr_of_guarded h
    · exact .inl hok
    · exact .inr ⟨rfl, .inl rfl⟩
  | marsKey n =>
    by_cases hn : n < 4 ∨ 14 < n
    · obtain rfl := Host.Outcome.next.inj ((execMarsKey_illegal hn s).symm.trans h)
      exact .inr ⟨rfl, .inr ⟨n, rfl, rfl⟩⟩
    · rw [← Host.Outcome.next.inj ((execMarsKey_legal (by omega) (by omega) s).symm.trans h)]
      exact .inl rfl
  | salsaXor =>
    cases hopen : s.salsa.sstream with
    | false =>
      obtain rfl := Host.Outcome.next.inj ((exec_salsaXor_closed hopen).symm.trans h)
      exact .inr ⟨rfl, .inl rfl⟩
    | true =>
      cases hfresh : s.salsa.sexh with
      | true =>
        obtain rfl := Host.Outcome.next.inj ((exec_salsaXor_exhausted hopen hfresh).symm.trans h)
        exact .inr ⟨rfl, .inl rfl⟩
      | false =>
        rw [← Host.Outcome.next.inj ((execSalsaXor_open s _ _ hopen hfresh rfl rfl).symm.trans h)]
        exact .inl rfl

/-- Settles O58: a raise leaves the state it was given, which is MARS_KEY's only after the schedule is discarded. -/
theorem errorsChangeNothingButErr : Obligations.ErrorsChangeNothingButErr := by
  refine ⟨fun v e s h => runCommand_of_error h s, fun i s t h herr => ?_⟩
  obtain ⟨-, hleft⟩ := (exec_ok_or_raises h).resolve_left herr
  exact hleft

/-- An open stream that has used its last keystream byte (R180). -/
def State.exhausted : State :=
  ((State.reset.latchSalsa (.replicate 8 0)).openStream (.replicate 2 0)).setPosition (BitVec.allOnes 64) 0 true

theorem State.exhausted_inv : State.exhausted.Inv :=
  ((resetMeetsTheInvariant.latchSalsa _).openStream rfl _).setPosition rfl (fun _ => ⟨rfl, rfl⟩) (absurd rfl)

/-- Each error is raised after reset, EXHAUSTED apart, which needs a stream at its end. -/
theorem exists_raise {i : Instr} {e : ErrCode} (h : i.mayRaise e = true) :
    ∃ (j : Instr) (s t : State), j.rowMatch = i.rowMatch ∧ j.wf = true ∧ s.Inv ∧ exec j s = next t ∧ t.err = e := by
  cases i with
  | nop | srst | marsS | marsS0 | marsS1 | marsMask | salsaKey | salsaQr | salsaHash | trivInit => cases h
  | marsKey _ =>
    obtain rfl := of_decide_eq_true h
    exact ⟨.marsKey 0, State.reset, _, rfl, rfl, resetMeetsTheInvariant, rfl, rfl⟩
  | marsEnc | marsDec | salsaBlock | salsaStart | trivClk | trivByte | trivXor =>
    obtain rfl := of_decide_eq_true h
    exact ⟨_, State.reset, _, rfl, rfl, resetMeetsTheInvariant, rfl, rfl⟩
  | salsaXor =>
    obtain rfl | rfl : e = .nostream ∨ e = .exhausted := by simpa [Instr.mayRaise] using h
    · exact ⟨.salsaXor, State.reset, _, rfl, rfl, resetMeetsTheInvariant, exec_salsaXor_closed rfl, rfl⟩
    · exact ⟨.salsaXor, State.exhausted, _, rfl, rfl, State.exhausted_inv, exec_salsaXor_exhausted rfl rfl, rfl⟩

/-- Settles O59: a command ends in OK or in an error of its row, and each of these has a state that raises it. -/
theorem eachCommandRaisesItsOwnErrors : Obligations.EachCommandRaisesItsOwnErrors :=
  ⟨fun _ _ _ h => (exec_ok_or_raises h).imp_right And.left, fun _ _ _ h => exists_raise h⟩

/-! ## One engine at a time (R254)

A command of an engine commutes with the transplant of that engine and ERR into another state, so that the other state's
engines are neither read nor written. -/

/-- The state `u` with ERR and one engine of `s`. -/
def State.withEngine (f : Family) (u s : State) : State :=
  match f with
  | .control => { u with err := s.err }
  | .mars => { u with mars := s.mars, err := s.err }
  | .salsa => { u with salsa := s.salsa, err := s.err }
  | .trivium => { u with triv := s.triv, err := s.err }

theorem refillKs_withEngine (u s : State) :
    refillKs (u.withEngine .salsa s) = u.withEngine .salsa (refillKs s) := by
  simp only [refillKs_eq]
  rfl

theorem advanceStream_withEngine (u s : State) :
    advanceStream (u.withEngine .salsa s) = u.withEngine .salsa (advanceStream s) := by
  simp only [advanceStream_eq]
  rfl

theorem setSdout_withEngine (u s : State) (w : Word) :
    (u.withEngine .salsa s).setSdout w = u.withEngine .salsa (s.setSdout w) := rfl

/-- A command of an engine commutes with the transplant. -/
theorem exec_withEngine {i : Instr} (hi : i.family ≠ .control) (u s : State) :
    exec i (u.withEngine i.family s) = mapNext (u.withEngine i.family) (exec i s) := by
  cases i with
  | nop | srst => exact absurd rfl hi
  | marsS | marsS0 | marsS1 | marsMask | salsaKey | salsaQr | salsaHash | trivInit => rfl
  | marsKey _ | marsEnc | marsDec | salsaBlock | salsaStart | trivClk | trivByte | trivXor =>
    simp only [exec, execMarsKey, execMarsEnc, execMarsDec, execSalsaBlock, execSalsaStart, execTrivClk, execTrivByte,
      execTrivXor, apply_ite (mapNext _)]
    rfl
  | salsaXor =>
    simp only [exec, execSalsaXor, Instr.family, refillKs_withEngine, setSdout_withEngine, advanceStream_withEngine,
      apply_ite (mapNext _)]
    rfl

/-- A command of an engine leaves in every state alike in that engine the same engine and the same ERR, and the rest of
that state. -/
theorem exec_of_alike {f : Family} {i : Instr} {s t s' t' : State} (hi : i.family = f) (hf : f ≠ .control)
    (hsame : s'.withEngine f s = s'.setErr s.err) (h : exec i s = next t) (h' : exec i s' = next t') :
    t' = s'.withEngine f t := by
  subst hi
  have hwith := exec_withEngine hf s' s
  rw [hsame, exec_setErr, h, h'] at hwith
  exact Host.Outcome.next.inj hwith

/-- Settles O56: a command replaces one engine and ERR, and in every state alike in that engine by the same. -/
theorem enginesAreIndependent : Obligations.EnginesAreIndependent := by
  intro i s t s' t' h h'
  refine ⟨fun hi => ?mars, fun hi => ?salsa, fun hi => ?trivium⟩
  case mars =>
    obtain ⟨_, _, rfl⟩ := exec_mars_shape i s t hi h
    refine ⟨rfl, rfl, fun hsame => ?_⟩
    rw [exec_of_alike hi nofun (by rw [State.withEngine, hsame]; rfl) h h']
    exact ⟨rfl, rfl⟩
  case salsa =>
    obtain ⟨_, _, rfl⟩ := exec_salsa_shape i s t hi h
    refine ⟨rfl, rfl, fun hsame => ?_⟩
    rw [exec_of_alike hi nofun (by rw [State.withEngine, hsame]; rfl) h h']
    exact ⟨rfl, rfl⟩
  case trivium =>
    obtain ⟨_, _, rfl⟩ := exec_triv_shape i s t hi h
    refine ⟨rfl, rfl, fun hsame => ?_⟩
    rw [exec_of_alike hi nofun (by rw [State.withEngine, hsame]; rfl) h h']
    exact ⟨rfl, rfl⟩

end Sys2Proof.Machine
end

section
/-! The two resets, commands of different engines in either order, and the registers a command leaves (R270, R276,
R279). -/

namespace Sys2Proof.Machine

open Host.Outcome (next)

/-! ## Reset (R270) -/

/-- A reset leaves the reset state, with the model's port fields as they stand. -/
theorem State.resetCore_eq (s : State) :
    s.resetCore = { State.reset with port := s.port, resetPin := s.resetPin, response := s.response } := rfl

/-- Settles O18: the asserted input and SRST both end in the reset core, and neither takes an access from the port. -/
theorem hardwareResetIsSoftReset : Obligations.HardwareResetIsSoftReset := by
  refine fun s => ⟨fun pins hpins => ?asserted, ?srst⟩
  case asserted =>
    rw [step_asserted s pins hpins, State.resetCore_eq]
    rfl
  case srst => rw [exec_srst, State.resetCore_eq]

/-! ## Commands of different engines (R279)

A command of an engine only transplants its engine and ERR, and two transplants of different engines commute but for
ERR. -/

@[simp] theorem State.withEngine_err (f : Family) (u s : State) : (u.withEngine f s).err = s.err := by
  cases f <;> rfl

theorem State.withEngine_self {f : Family} (hf : f ≠ .control) (s : State) : s.withEngine f s = s.setErr s.err := by
  cases f with
  | control => exact absurd rfl hf
  | mars | salsa | trivium => rfl

/-- A state that took another engine is alike in this one. -/
theorem State.withEngine_withEngine_self {f g : Family} (hfg : f ≠ g) (hg : g ≠ .control) (s u : State) :
    (s.withEngine f u).withEngine g s = (s.withEngine f u).setErr s.err := by
  cases f <;> cases g
  case control.control | mars.mars | salsa.salsa | trivium.trivium => exact absurd rfl hfg
  case mars.control | salsa.control | trivium.control => exact absurd rfl hg
  all_goals rfl

theorem State.withEngine_comm {f g : Family} (hfg : f ≠ g) (s u v : State) :
    (s.withEngine f u).withEngine g v = ((s.withEngine g v).withEngine f u).setErr v.err := by
  cases f <;> cases g
  case control.control | mars.mars | salsa.salsa | trivium.trivium => exact absurd rfl hfg
  all_goals rfl

/-- A command of an engine leaves all but that engine and ERR (R254). -/
theorem exec_eq_withEngine {i : Instr} {s t : State} (hi : i.family ≠ .control) (h : exec i s = next t) :
    t = s.withEngine i.family t :=
  exec_of_alike rfl hi (State.withEngine_self hi s) h h

/-- A command after one of another engine transplants there what it leaves without the other. -/
theorem exec_after_other_engine {i j : Instr} {s si sj sij : State} (hi : i.family ≠ .control)
    (hj : j.family ≠ .control) (hij : i.family ≠ j.family) (hsi : exec i s = next si) (hsj : exec j s = next sj)
    (hsij : exec j si = next sij) : sij = (s.withEngine i.family si).withEngine j.family sj := by
  have hframe := exec_eq_withEngine hi hsi
  have halike : si.withEngine j.family s = si.setErr s.err := by
    rw [hframe]
    exact State.withEngine_withEngine_self hij hj s si
  rw [← hframe]
  exact exec_of_alike rfl hj halike hsj hsij

/-- Settles O57: either order is the same two transplants, and the later one brings its ERR. -/
theorem commandsOfDifferentEnginesCommute : Obligations.CommandsOfDifferentEnginesCommute := by
  intro i j s hi hj hij
  obtain ⟨si, hsi⟩ := exec_answers i s
  obtain ⟨sj, hsj⟩ := exec_answers j s
  obtain ⟨sij, hsij⟩ := exec_answers j si
  obtain ⟨sji, hsji⟩ := exec_answers i sj
  refine ⟨si, sij, sj, sji, hsi, hsij, hsj, hsji, ?_⟩
  have hij' := exec_after_other_engine hi hj hij hsi hsj hsij
  have hji' := exec_after_other_engine hj hi hij.symm hsj hsi hsji
  have hsame : sij = sji.setErr sj.err := by
    rw [hij', hji', State.withEngine_comm hij]
  rw [hsame]
  exact ⟨rfl, rfl, rfl, rfl, by rw [hji', State.withEngine_err]⟩

/-! ## The registers a command leaves (R276) -/

/-- The state with ERR and all latched state cleared, which leaves what the registers but STATUS show. -/
def State.clearLatched (s : State) : State :=
  { (s.latchMars (.replicate 40 0) false 0).latchSalsa (.replicate 8 0) with
    err := .ok, triv := { s.triv with regs := ⟨0, 0, 0⟩, tstate := .uninitialized } }

theorem readReg_clearLatched {r : Reg} (hr : r ≠ .status) (s : State) : readReg r s.clearLatched = readReg r s := by
  cases r with
  | status => exact absurd rfl hr
  | _ => rfl

/-- Two states that differ in ERR and in latched state alone read the same, STATUS apart. -/
theorem readReg_of_clearLatched {r : Reg} (hr : r ≠ .status) {s t : State} (h : t.clearLatched = s.clearLatched) :
    readReg r t = readReg r s := by
  rw [← readReg_clearLatched hr t, h, readReg_clearLatched hr s]

section Reads

variable {r : Reg} (s : State)

theorem readReg_setMOut (h : ∀ i, r ≠ .mOut i) (v : Vector Word 4) : readReg r (s.setMOut v) = readReg r s := by
  cases r with
  | mOut i => exact absurd rfl (h i)
  | _ => rfl

theorem readReg_setMRes (h : r ≠ .mres) (w : Word) : readReg r (s.setMRes w) = readReg r s := by
  cases r with
  | mres => exact absurd rfl h
  | _ => rfl

/-- A word of SHOUT that is written as it was still reads the same. -/
theorem readReg_setShout {v : Vector Word 16} (h : ∀ i, r = .shout i → v[i.val] = s.salsa.shout[i.val]) :
    readReg r (s.setShout v) = readReg r s := by
  cases r with
  | shout i => exact congrArg (· &&& _) (h i rfl)
  | _ => rfl

theorem readReg_setSdout (h : r ≠ .sdout) (w : Word) : readReg r (s.setSdout w) = readReg r s := by
  cases r with
  | sdout => exact absurd rfl h
  | _ => rfl

theorem readReg_setTdout (h : r ≠ .tdout) (w : Word) : readReg r (s.setTdout w) = readReg r s := by
  cases r with
  | tdout => exact absurd rfl h
  | _ => rfl

end Reads

section ButStatus

variable {r : Reg} {s t u : State} (hr : r ≠ .status)
include hr

/-! One rule for each update of what STATUS alone shows, or nothing. -/

theorem readReg_setErr (s : State) (e : ErrCode) : readReg r (s.setErr e) = readReg r s :=
  readReg_of_clearLatched hr rfl

theorem readReg_latchMars (s : State) (k : Vector Word 40) (keyed : Bool) (len : BitVec 4) :
    readReg r (s.latchMars k keyed len) = readReg r s :=
  readReg_of_clearLatched hr rfl

theorem readReg_latchSalsa (s : State) (key : Vector Word 8) : readReg r (s.latchSalsa key) = readReg r s :=
  readReg_of_clearLatched hr rfl

theorem readReg_openStream (s : State) (nonce : Vector Word 2) : readReg r (s.openStream nonce) = readReg r s :=
  readReg_of_clearLatched hr rfl

theorem readReg_setKs (s : State) (ks : Vector Word 16) : readReg r (s.setKs ks) = readReg r s :=
  readReg_of_clearLatched hr rfl

theorem readReg_setPosition (s : State) (bc : BitVec 64) (off : BitVec 6) (exh : Bool) :
    readReg r (s.setPosition bc off exh) = readReg r s :=
  readReg_of_clearLatched hr rfl

theorem readReg_setTrivRegs (s : State) (regs : TrivRegs) : readReg r (s.setTrivRegs regs) = readReg r s :=
  readReg_of_clearLatched hr rfl

theorem readReg_setTState (s : State) (x : TState) : readReg r (s.setTState x) = readReg r s :=
  readReg_of_clearLatched hr rfl

/-! The ways a command ends. -/

theorem readReg_of_succeed (h : succeed u = next t) (hu : readReg r u = readReg r s) : readReg r t = readReg r s := by
  rw [eq_setErr_of_succeed h, readReg_setErr hr, hu]

/-- A command that asks for a key, or for *producing*, reads the same after a raise. -/
theorem readReg_of_guarded {c : Prop} [Decidable c] {code : ErrCode}
    (h : (if c then succeed u else raiseCmdError code s) = next t) (hu : readReg r u = readReg r s) :
    readReg r t = readReg r s := by
  split at h
  · exact readReg_of_succeed hr h hu
  · rw [← Host.Outcome.next.inj h, readReg_setErr hr]

/-- MARS_KEY latches or discards a schedule, which no register shows. -/
theorem readReg_of_execMarsKey {n : Nat} (h : execMarsKey n s = next t) : readReg r t = readReg r s := by
  by_cases hn : n < 4 ∨ 14 < n
  · rw [← Host.Outcome.next.inj ((execMarsKey_illegal hn s).symm.trans h), readReg_setErr hr, readReg_latchMars hr]
  · rw [← Host.Outcome.next.inj ((execMarsKey_legal (by omega) (by omega) s).symm.trans h), readReg_setErr hr,
      readReg_latchMars hr]

/-- SALSA_XOR writes SDOUT, and moves the window and the position, which no register shows. -/
theorem readReg_of_execSalsaXor (hsdout : r ≠ .sdout) (h : exec .salsaXor s = next t) :
    readReg r t = readReg r s := by
  cases hopen : s.salsa.sstream with
  | false => rw [← Host.Outcome.next.inj ((exec_salsaXor_closed hopen).symm.trans h), readReg_setErr hr]
  | true =>
    cases hfresh : s.salsa.sexh with
    | true => rw [← Host.Outcome.next.inj ((exec_salsaXor_exhausted hopen hfresh).symm.trans h), readReg_setErr hr]
    | false =>
      rw [← Host.Outcome.next.inj ((execSalsaXor_open s _ _ hopen hfresh rfl rfl).symm.trans h), readReg_setErr hr,
        advanceStream_eq, readReg_setPosition hr, readReg_setSdout _ hsdout, readReg_setKs hr]

/-- A command leaves every register but STATUS and those in its list. -/
theorem readReg_of_exec {i : Instr} (hw : i.mayWrite r = false) (h : exec i s = next t) :
    readReg r t = readReg r s := by
  cases i with
  | srst => cases hw
  | nop => exact readReg_of_succeed hr h rfl
  | marsKey n => exact readReg_of_execMarsKey hr h
  | marsEnc | marsDec => exact readReg_of_guarded hr h (readReg_setMOut s (by rintro i rfl; cases hw) _)
  | marsS | marsS0 | marsS1 | marsMask => exact readReg_of_succeed hr h (readReg_setMRes s (of_decide_eq_false hw) _)
  | salsaKey => exact readReg_of_succeed hr h (readReg_latchSalsa hr s _)
  | salsaStart => exact readReg_of_guarded hr h (readReg_openStream hr s _)
  | salsaQr =>
    refine readReg_of_succeed hr h (readReg_setShout s fun i hi => ?_)
    have hkept : 4 ≤ i.val := by simpa [hi, Instr.mayWrite] using hw
    rw [Vector.getElem_set_ne _ _ (by omega), Vector.getElem_set_ne _ _ (by omega),
      Vector.getElem_set_ne _ _ (by omega), Vector.getElem_set_ne _ _ (by omega)]
  | salsaHash => exact readReg_of_succeed hr h (readReg_setShout s (by rintro i rfl; cases hw))
  | salsaBlock => exact readReg_of_guarded hr h (readReg_setShout s (by rintro i rfl; cases hw))
  | salsaXor => exact readReg_of_execSalsaXor hr (of_decide_eq_false hw) h
  | trivInit =>
    refine readReg_of_succeed hr ((exec_trivInit s).symm.trans h) ?_
    rw [readReg_setTState hr, readReg_setTrivRegs hr]
  | trivClk | trivByte | trivXor =>
    refine readReg_of_guarded hr h ?_
    rw [readReg_setTdout _ (of_decide_eq_false hw), readReg_setTrivRegs hr]

end ButStatus

/-- Only SRST has a staging register in its list. -/
theorem Instr.mayWrite_of_readWrite {i : Instr} {r : Reg} (hi : i ≠ .srst) (hr : r.kind = .readWrite) :
    i.mayWrite r = false := by
  cases r with
  | id | status | cmd | mOut _ | mres | shout _ | sdout | tdout => cases hr
  | _ =>
    cases i with
    | srst => exact absurd rfl hi
    | _ => rfl

/-- No command touches the port or the reset input. -/
theorem exec_port {i : Instr} {s t : State} (h : exec i s = next t) :
    t.port = s.port ∧ t.resetPin = s.resetPin ∧ t.response = s.response := by
  by_cases hi : i.family = .control
  · cases i with
    | nop | srst =>
      rw [eq_setErr_of_succeed h]
      exact ⟨rfl, rfl, rfl⟩
    | _ => cases hi
  · rw [exec_eq_withEngine hi h]
    cases i.family with
    | control | mars | salsa | trivium => exact ⟨rfl, rfl, rfl⟩

/-- Settles O60: each command is named updates of its own result registers and of latched state, and no list but SRST's
holds a staging register. -/
theorem commandsChangeOnlyTheirResults : Obligations.CommandsChangeOnlyTheirResults := by
  intro i s t r h
  obtain ⟨hport, hpin, hresponse⟩ := exec_port h
  refine ⟨fun hr hw => readReg_of_exec hr hw h, hport, hpin, hresponse, fun hi hkind => ?staging⟩
  case staging =>
    have hr : r ≠ .status := fun hstatus => by rw [hstatus] at hkind; cases hkind
    exact readReg_of_exec hr (Instr.mayWrite_of_readWrite hi hkind) h

end Sys2Proof.Machine
end
